-- ==== Sys2Proof/Word.lean ====
section
/-! DEFINITION. The word types whose width no parameter of spec/00_scope.md rule R6 sets, and the small enumerations that
operands and ports are made of. The types of width REGW and CW stand in Sys2Proof/Config.lean. -/

namespace Sys2Proof

/-- One byte of the data-in, data-out or clock-in stream (spec/20_memory.md rule R40). -/
abbrev Byte := BitVec 8

/-- A register-file offset: the 16 bits that format W of the opcode table compares (spec/30_encoding.md rule R71). -/
abbrev Offset := BitVec 16

/-- The three outcomes of a connection attempt, an input from the environment (spec/40_link_lifecycle.md rule R81). -/
inductive ConnectOutcome where
  /-- both channels opened -/
  | ok
  /-- the data channel could not be opened -/
  | failData
  /-- the data channel opened, the clock channel could not be -/
  | failClock
deriving DecidableEq, Repr

/-- The six link registers by name (spec/00_scope.md rule R8, `REG[name]`). -/
inductive LinkReg where
  | joycnt
  | joystat
  | transLo
  | transHi
  | recvLo
  | recvHi
deriving DecidableEq, Repr

/-- The width of one CPU-side store (spec/20_memory.md rule R43). A 32-bit store is two 16-bit operations, and other
operations may fall between them (spec/20_memory.md rule R47, spec/92_eei_decisions.md D20): `gap` is how many of the
coming events do, an input from the environment (log entry 19). -/
inductive AccessSize where
  | byte
  | half
  | word (gap : Nat)
deriving DecidableEq, Repr

/-- What one `ClockPoll()` gives (spec/10_state.md rule R23). -/
inductive ClockRead where
  /-- `none`: nothing readable -/
  | nothing
  /-- `short`: readable, fewer than 4 bytes obtained -/
  | short
  /-- `word(b0, b1, b2, b3)`: exactly 4 bytes, `b0` first on the wire -/
  | word (b0 b1 b2 b3 : Byte)
deriving DecidableEq, Repr

end Sys2Proof
end

