-- ==== Sys2Proof/Config.lean ====
section
/-! DEFINITION. What the spec makes a parameter (spec/00_scope.md rules R5 and R6), with the default the spec gives, the
types whose width a parameter sets, and the free values, which have no body. -/

namespace Sys2Proof

/-! ## The tables that parameters hold -/

/-- The timing constants the source fixes (rule R5): bits on the link and cycles per bit. -/
structure Timing where
  cyclesPerBit : Nat := 75
  /-- the 8 bits of the idle poll interval (spec/42_sequencer.md rule R107) -/
  idleBits : Nat := 8
  /-- the command byte and a framing bit (spec/43_commands.md rule R121) -/
  baseBits : Nat := 8 + 1
deriving DecidableEq, Repr

/-- `extraBits` of each command (spec/43_commands.md rule R121). -/
structure ExtraBits where
  reset : Nat := 24 + 1
  poll : Nat := 24 + 1
  recv : Nat := 40 + 1
  trans : Nat := 40 + 1
  unrecognized : Nat := 0
deriving DecidableEq, Repr

/-- `COST`, the cycle cost per command (rule R6, spec/43_commands.md rule R121). -/
structure CostTable where
  reset : Nat
  poll : Nat
  recv : Nat
  trans : Nat
  unrecognized : Nat
deriving DecidableEq, Repr

/-- The default of `COST`: `(8 + 1 + extraBits) * cyclesPerBit` (rule R121; log entry 12). -/
def CostTable.byFormula (t : Timing) (x : ExtraBits) : CostTable where
  reset := (t.baseBits + x.reset) * t.cyclesPerBit
  poll := (t.baseBits + x.poll) * t.cyclesPerBit
  recv := (t.baseBits + x.recv) * t.cyclesPerBit
  trans := (t.baseBits + x.trans) * t.cyclesPerBit
  unrecognized := (t.baseBits + x.unrecognized) * t.cyclesPerBit

/-- `REGFILE_RESET`, the value of each link register when the console resets (rule R6; log entry 5). -/
structure ResetTable where
  joycnt : Nat := 0x0000
  joystat : Nat := 0x0000
  joyTransLo : Nat := 0x0000
  joyTransHi : Nat := 0x0000
  joyRecvLo : Nat := 0x0000
  joyRecvHi : Nat := 0x0000
deriving DecidableEq, Repr

/-! ## The parameters -/

/-- The configuration table of rule R6, one field per row, and the constants of rule R5. -/
structure Params where
  /-- `REGW` -/
  regw : Nat := 16
  /-- `CW` -/
  cw : Nat := 32
  /-- `IO_BASE` -/
  ioBase : BitVec 32 := 0x04000000
  addrJoycnt : Offset := 0x0140
  addrJoyRecvLo : Offset := 0x0150
  addrJoyRecvHi : Offset := 0x0152
  addrJoyTransLo : Offset := 0x0154
  addrJoyTransHi : Offset := 0x0156
  addrJoystat : Offset := 0x0158
  /-- `REGFILE_RESET` -/
  regfileReset : ResetTable := {}
  timing : Timing := {}
  /-- `COST` -/
  cost : CostTable := CostTable.byFormula timing {}
deriving DecidableEq, Repr

/-- The parameters of the machine modelled: the defaults of rule R6 (log entries 5, 11, 12, 14). Reducible, so that the
widths in types are seen as the numbers they are. -/
@[reducible] def Config.params : Params := {}

/-! ## The types whose width is a parameter -/

/-- A link register and a WRITEREG value: `REGW` bits (rules R6, R7; log entry 14). -/
abbrev Half := BitVec Config.params.regw

/-- A cycle counter, `elapsedCycles` and a cost: `CW` bits, two's complement (rules R6, R7; log entry 14). Its value is
`BitVec.toInt`. -/
abbrev Cycles := BitVec Config.params.cw

/-- The values of the six link registers (spec/10_state.md rules R14 to R17). -/
structure LinkRegs where
  joycnt : Half
  joystat : Half
  joyTransLo : Half
  joyTransHi : Half
  joyRecvLo : Half
  joyRecvHi : Half
deriving DecidableEq, Repr

/-- The registers as the console's reset leaves them (spec/70_reset_and_hazards.md rule R163; log entry 5). -/
def Config.resetRegs : LinkRegs where
  joycnt := BitVec.ofNat _ Config.params.regfileReset.joycnt
  joystat := BitVec.ofNat _ Config.params.regfileReset.joystat
  joyTransLo := BitVec.ofNat _ Config.params.regfileReset.joyTransLo
  joyTransHi := BitVec.ofNat _ Config.params.regfileReset.joyTransHi
  joyRecvLo := BitVec.ofNat _ Config.params.regfileReset.joyRecvLo
  joyRecvHi := BitVec.ofNat _ Config.params.regfileReset.joyRecvHi

/-! ## Free values -/

/-- FREE VALUE (spec/00_scope.md rule R8, `draw8`; spec/92_eei_decisions.md D8): the n-th drawn byte, for a RECV payload
byte that had not arrived. Nothing is known of it (log entry 9). -/
opaque Config.freeByte : Nat → Byte

/-- FREE VALUE (spec/92_eei_decisions.md D6): the n-th drawn counter value, for NEC and CSR after CREATE and before the
first ONLOAD. Nothing is known of it (log entry 4). -/
opaque Config.freeCycles : Nat → Cycles

end Sys2Proof
end

