-- ==== Sys2Proof/Syntax.lean ====
section
/-! DEFINITION. The operations of the block, one constructor per mnemonic of spec/opcode_table.json
(spec/00_scope.md rule R2: five wire commands and eleven host operations). -/

namespace Sys2Proof

/-- The operations. The wire commands carry no operand: RECV reads its payload from the data-in port when it runs
(spec/43_commands.md rule R124). -/
inductive Instr where
  /-- RESET, command byte 0xFF (rule R122) -/
  | reset
  /-- POLL, command byte 0x00 (rule R123) -/
  | poll
  /-- RECV, command byte 0x15 (rule R124) -/
  | recv
  /-- TRANS, command byte 0x14 (rule R125) -/
  | trans
  /-- UNRECOGNIZED, any other command byte (rule R126) -/
  | unrecognized (b : Byte)
  /-- WRITEREG at ADDR_JOYCNT (spec/41_register_write.md rule R90) -/
  | wrJoycnt (value : Half)
  /-- WRITEREG at ADDR_JOYSTAT (rule R91) -/
  | wrJoystat (value : Half)
  /-- WRITEREG at ADDR_JOY_TRANS_LO (rule R92) -/
  | wrJoyTransLo (value : Half)
  /-- WRITEREG at ADDR_JOY_TRANS_HI (rule R93) -/
  | wrJoyTransHi (value : Half)
  /-- WRITEREG at any other offset (rule R94) -/
  | wrOther (offset : Offset) (value : Half)
  /-- `create()` (spec/40_link_lifecycle.md rule R80) -/
  | create
  /-- `connect(address, dataPort, clockPort)`, with the environment's outcome (rule R81) -/
  | connect (outcome : ConnectOutcome)
  /-- `teardown()` (rule R82) -/
  | teardown
  /-- `destroy()` (rule R83) -/
  | destroy
  /-- `onLoad()` (rule R84) -/
  | onload
  /-- `processEvents(elapsedCycles)` (spec/42_sequencer.md rule R100) -/
  | process (elapsed : Cycles)
deriving DecidableEq, Repr

end Sys2Proof
end

