-- ==== Sys2Proof/WellFormed.lean ====
section
/-! DEFINITION. Which terms of `Instr` stand for an operation of the spec: an UNRECOGNIZED byte is none of the four
recognised codes, a WR_OTHER offset none of the four intercepted offsets. -/

namespace Sys2Proof

/-- The byte is none of 0xFF, 0x00, 0x15, 0x14 (spec/43_commands.md rule R126). -/
def unrecognizedByte (b : Byte) : Bool :=
  b != 0xFF && b != 0x00 && b != 0x15 && b != 0x14

/-- The offset is none of ADDR_JOYCNT, ADDR_JOYSTAT, ADDR_JOY_TRANS_LO, ADDR_JOY_TRANS_HI
(spec/41_register_write.md rule R94). -/
def notIntercepted (offset : Offset) : Bool :=
  offset != Config.params.addrJoycnt && offset != Config.params.addrJoystat &&
    offset != Config.params.addrJoyTransLo && offset != Config.params.addrJoyTransHi

/-- Well-formed operations. -/
def Instr.wf : Instr → Bool
  | .reset => true
  | .poll => true
  | .recv => true
  | .trans => true
  | .unrecognized b => unrecognizedByte b
  | .wrJoycnt _ => true
  | .wrJoystat _ => true
  | .wrJoyTransLo _ => true
  | .wrJoyTransHi _ => true
  | .wrOther offset _ => notIntercepted offset
  | .create => true
  | .connect _ => true
  | .teardown => true
  | .destroy => true
  | .onload => true
  | .process _ => true

end Sys2Proof
end

