-- ==== Sys2Proof/Decode.lean ====
section
/-! DEFINITION. The three coded forms of an operation (spec/30_encoding.md rules R60, R68, R71), the decoder, total on
each of them, and after it the encoder. A CPU-side store of a size or place the spec gives no meaning is rejected by name
(spec/60_exceptions.md rule R145). -/

namespace Sys2Proof

/-! ## The register map (spec/20_memory.md rule R41) -/

/-- The register-file offset of a link register. -/
def addrOf : LinkReg → Offset
  | .joycnt => Config.params.addrJoycnt
  | .joystat => Config.params.addrJoystat
  | .transLo => Config.params.addrJoyTransLo
  | .transHi => Config.params.addrJoyTransHi
  | .recvLo => Config.params.addrJoyRecvLo
  | .recvHi => Config.params.addrJoyRecvHi

/-- The link register whose offset is exactly `offset`. -/
def regAt (offset : Offset) : Option LinkReg :=
  if offset = addrOf .joycnt then some .joycnt
  else if offset = addrOf .joystat then some .joystat
  else if offset = addrOf .transLo then some .transLo
  else if offset = addrOf .transHi then some .transHi
  else if offset = addrOf .recvLo then some .recvLo
  else if offset = addrOf .recvHi then some .recvHi
  else none

/-- The link register that the byte at `offset` belongs to: its low byte stands at the even offset, its high byte one
above (spec/20_memory.md rule R42; log entry 21). -/
def byteOwner (offset : Offset) : Option LinkReg :=
  match regAt offset with
  | some r => some r
  | none => regAt (offset - 1)

/-- The bus address of a register-file offset (rule R41, `IO_BASE` + offset). -/
def busAddress (offset : Offset) : BitVec 32 := Config.params.ioBase + offset.setWidth 32

/-- Some byte of the `n` bytes from `offset` on belongs to a link register. -/
def touchesLink : Nat → Offset → Bool
  | 0, _ => false
  | n + 1, offset => (byteOwner offset).isSome || touchesLink n (offset + 1)

/-- A 16-bit access at `offset` cuts a link register: it touches one but is not the aligned access to it
(spec/20_memory.md rule R43, spec/60_exceptions.md rule R145). -/
def cutsLink (offset : Offset) : Bool := (regAt offset).isNone && touchesLink 2 offset

/-! ## Format C: the command byte -/

/-- The command decoder (spec/30_encoding.md rule R67): total on any byte. -/
def decodeCommand (b : Byte) : Instr :=
  if b = 0xFF then .reset
  else if b = 0x00 then .poll
  else if b = 0x14 then .trans
  else if b = 0x15 then .recv
  else .unrecognized b

/-! ## Format W: a register write, selected by its offset -/

/-- The selection of WRITEREG's rule by the offset (spec/30_encoding.md rule R68, spec/41_register_write.md rule R95). -/
def decodeWrite (offset : Offset) (value : Half) : Instr :=
  if offset = addrOf .joycnt then .wrJoycnt value
  else if offset = addrOf .joystat then .wrJoystat value
  else if offset = addrOf .transLo then .wrJoyTransLo value
  else if offset = addrOf .transHi then .wrJoyTransHi value
  else .wrOther offset value

/-! ## Format H: an operation selected by its name -/

/-- The operations selected by name, with their operands (spec/30_encoding.md rule R68, format H of rule R71). -/
inductive HostCall where
  | create
  | connect (outcome : ConnectOutcome)
  | teardown
  | destroy
  | onload
  | process (elapsed : Cycles)
deriving DecidableEq, Repr

/-- The operation a name selects. -/
def decodeCall : HostCall → Instr
  | .create => .create
  | .connect o => .connect o
  | .teardown => .teardown
  | .destroy => .destroy
  | .onload => .onload
  | .process e => .process e

/-! ## The whole decoder and the encoder -/

/-- The coded form of one operation: format C, W or H (rule R71). -/
inductive Coded where
  | command (b : Byte)
  | write (offset : Offset) (value : Half)
  | call (op : HostCall)
deriving DecidableEq, Repr

/-- The decoder, total on every coded form. -/
def decode : Coded → Instr
  | .command b => decodeCommand b
  | .write offset value => decodeWrite offset value
  | .call op => decodeCall op

/-- The encoder, from the tables of rules R62, R41 and R68. -/
def encode : Instr → Coded
  | .reset => .command 0xFF
  | .poll => .command 0x00
  | .recv => .command 0x15
  | .trans => .command 0x14
  | .unrecognized b => .command b
  | .wrJoycnt v => .write (addrOf .joycnt) v
  | .wrJoystat v => .write (addrOf .joystat) v
  | .wrJoyTransLo v => .write (addrOf .transLo) v
  | .wrJoyTransHi v => .write (addrOf .transHi) v
  | .wrOther offset v => .write offset v
  | .create => .call .create
  | .connect o => .call (.connect o)
  | .teardown => .call .teardown
  | .destroy => .call .destroy
  | .onload => .call .onload
  | .process e => .call (.process e)

/-! ## CPU-side stores of every size -/

/-- What a CPU-side store asks of the register file (spec/20_memory.md rule R43). -/
inductive StoreShape where
  /-- one 16-bit WRITEREG operation -/
  | one (i : Instr)
  /-- a 32-bit store: this operation first, then, after `gap` other events, a 16-bit store at the second offset -/
  | two (gap : Nat) (low : Instr) (offset : Offset) (value : Half)
  /-- one byte of a register that is none of the six -/
  | plainByte (offset : Offset) (value : Byte)
  /-- rejected: `refuse(UnsupportedAccessSize)` (spec/60_exceptions.md rule R145) -/
  | unsupported
deriving DecidableEq, Repr

/-- A 32-bit store is split when it stores to JOY_TRANS or JOY_RECV as a whole, or touches none of the six registers
(rule R43; that a store that touches none is split too is the model's choice, log entry 19). -/
def splits (offset : Offset) : Bool :=
  offset == addrOf .transLo || offset == addrOf .recvLo || !touchesLink 4 offset

/-- The decoder of a CPU-side store: `value` holds the stored bits in its low bits. MODEL'S CHOICE: the offset of the high
half of a split store is taken modulo 2^16, so that of a store at 0xFFFE or 0xFFFF is 0x0000 or 0x0001 (log entry 19). -/
def decodeStore (size : AccessSize) (offset : Offset) (value : BitVec 32) : StoreShape :=
  match size with
  | .half => .one (decodeWrite offset (value.setWidth _))
  | .word gap =>
    if splits offset then
      .two gap (decodeWrite offset (value.setWidth _)) (offset + 2) ((value >>> 16).setWidth _)
    else .unsupported
  | .byte => if touchesLink 1 offset then .unsupported else .plainByte offset (value.setWidth 8)

/-! ## The opcode table as rows (spec/opcode_table.json, rule R71) -/

/-- The sixteen mnemonics of the table. -/
inductive Mnemonic where
  | RESET | POLL | RECV | TRANS | UNRECOGNIZED
  | WR_JOYCNT | WR_JOYSTAT | WR_JOY_TRANS_LO | WR_JOY_TRANS_HI | WR_OTHER
  | CREATE | CONNECT | TEARDOWN | DESTROY | ONLOAD | PROCESS
deriving DecidableEq, Repr

/-- The mnemonic of an operation. -/
def Instr.mnemonic : Instr → Mnemonic
  | .reset => .RESET
  | .poll => .POLL
  | .recv => .RECV
  | .trans => .TRANS
  | .unrecognized _ => .UNRECOGNIZED
  | .wrJoycnt _ => .WR_JOYCNT
  | .wrJoystat _ => .WR_JOYSTAT
  | .wrJoyTransLo _ => .WR_JOY_TRANS_LO
  | .wrJoyTransHi _ => .WR_JOY_TRANS_HI
  | .wrOther _ _ => .WR_OTHER
  | .create => .CREATE
  | .connect _ => .CONNECT
  | .teardown => .TEARDOWN
  | .destroy => .DESTROY
  | .onload => .ONLOAD
  | .process _ => .PROCESS

/-- A row of the table: a value matches it when `(value & mask) == match` (rule R71). -/
structure TableRow (w : Nat) where
  name : Mnemonic
  pattern : BitVec w
  mask : BitVec w
deriving DecidableEq, Repr

/-- The row matches the value. -/
def TableRow.hits {w : Nat} (row : TableRow w) (v : BitVec w) : Bool := v &&& row.mask == row.pattern

/-- The four recognised commands of format C. -/
def recognizedRows : List (TableRow 8) :=
  [⟨.RESET, 0xFF, 0xFF⟩, ⟨.POLL, 0x00, 0xFF⟩, ⟨.RECV, 0x15, 0xFF⟩, ⟨.TRANS, 0x14, 0xFF⟩]

/-- The sixteen rows that cover the 252 other bytes (spec/30_encoding.md rule R66). -/
def unrecognizedRows : List (TableRow 8) :=
  [⟨.UNRECOGNIZED, 0x80, 0xC0⟩, ⟨.UNRECOGNIZED, 0xC0, 0xE0⟩, ⟨.UNRECOGNIZED, 0xE0, 0xF0⟩,
   ⟨.UNRECOGNIZED, 0xF0, 0xF8⟩, ⟨.UNRECOGNIZED, 0xF8, 0xFC⟩, ⟨.UNRECOGNIZED, 0xFC, 0xFE⟩,
   ⟨.UNRECOGNIZED, 0xFE, 0xFF⟩, ⟨.UNRECOGNIZED, 0x40, 0xC0⟩] ++
  [⟨.UNRECOGNIZED, 0x20, 0xE0⟩, ⟨.UNRECOGNIZED, 0x08, 0xF8⟩, ⟨.UNRECOGNIZED, 0x04, 0xFC⟩,
   ⟨.UNRECOGNIZED, 0x02, 0xFE⟩, ⟨.UNRECOGNIZED, 0x01, 0xFF⟩, ⟨.UNRECOGNIZED, 0x18, 0xF8⟩,
   ⟨.UNRECOGNIZED, 0x10, 0xFC⟩, ⟨.UNRECOGNIZED, 0x16, 0xFE⟩]

/-- The format C rows. -/
def commandRows : List (TableRow 8) := recognizedRows ++ unrecognizedRows

/-- The format W rows, WR_OTHER last. -/
def writeRows : List (TableRow 16) :=
  [⟨.WR_JOYCNT, 0x0140, 0xFFFF⟩, ⟨.WR_JOYSTAT, 0x0158, 0xFFFF⟩, ⟨.WR_JOY_TRANS_LO, 0x0154, 0xFFFF⟩,
   ⟨.WR_JOY_TRANS_HI, 0x0156, 0xFFFF⟩, ⟨.WR_OTHER, 0x0000, 0x0000⟩]

/-- The name a format H row is selected by. -/
def HostCall.mnemonic : HostCall → Mnemonic
  | .create => .CREATE
  | .connect _ => .CONNECT
  | .teardown => .TEARDOWN
  | .destroy => .DESTROY
  | .onload => .ONLOAD
  | .process _ => .PROCESS

/-- The mnemonic of the first row of the table that a coded form matches. -/
def tableMnemonic : Coded → Option Mnemonic
  | .command b => (commandRows.find? (fun row => row.hits b)).map (fun row => row.name)
  | .write offset _ => (writeRows.find? (fun row => row.hits offset)).map (fun row => row.name)
  | .call op => some op.mnemonic

/-! ## The host's numbering of an operation's bits -/

/-- The coded form whose bits are `w`: a row of at most 8 bits is a command byte, a longer one a register-file offset
(bits 15:0) and the written value (bits 31:16). A row of no bits (format H, selected by name) has no word. -/
def codedWord (nbits w : Nat) : Option Coded :=
  if nbits = 0 then none
  else if nbits ≤ 8 then some (.command (BitVec.ofNat 8 w))
  else if nbits ≤ 32 then some (.write (BitVec.ofNat 16 w) (BitVec.ofNat _ (w / 65536)))
  else none

/-- The operation the decoder reads from the bits `w` of a table row. -/
def decodeTableWord (nbits w : Nat) : Option Instr := (codedWord nbits w).map decode

end Sys2Proof
end

