-- ==== Sys2Proof/Machine/State.lean ====
section
/-! DEFINITION. The machine's state as plain data (spec/10_state.md), the reasons a step stops, and the state after the
console's reset. -/

namespace Sys2Proof.Machine

/-- No fault exists: the block raises no synchronous exception (spec/60_exceptions.md rule R143), so no meaning and no
step ends in one. Safe: the type has no constructor. -/
inductive Fault
deriving DecidableEq, Repr

/-- Why an operation is given no meaning (spec/00_scope.md rule R8, `refuse(reason)`). -/
inductive Refusal where
  /-- Raised by an arm of exec whose instruction has no meaning yet. Safe. -/
  | notModelled (mnemonic : String)
  /-- Raised by PROCESS while a channel is absent (spec/42_sequencer.md rule R100, spec/60_exceptions.md rule R144). Safe. -/
  | notConnected
  /-- Raised by PROCESS when an exact counter result leaves the signed range of CW bits (rules R110,
  R144). Safe. -/
  | counterOverflow
  /-- Raised by a CPU-side access to one of the six registers that is not an aligned 16-bit access, nor a 32-bit store
  that is split (spec/20_memory.md rule R43, rule R145). Safe. -/
  | unsupportedAccessSize
  /-- Raised by every host operation but CREATE, and by every WRITEREG, while no block exists
  (spec/40_link_lifecycle.md rules R83, R86; log entry 13). Safe. -/
  | noBlock
deriving DecidableEq, Repr

/-- A channel handle (spec/10_state.md rule R18). -/
inductive Channel where
  | absent
  | connected
deriving DecidableEq, Repr

/-- The one raise event there is, on the serial I/O interrupt line (spec/60_exceptions.md rule R140). -/
inductive IrqEvent where
  | sio
deriving DecidableEq, Repr

/-- What an operation returns to its caller (spec/30_encoding.md rule R68, spec/70_reset_and_hazards.md rule R182). -/
inductive Result where
  /-- no value: CREATE, TEARDOWN, DESTROY -/
  | nothing
  /-- CONNECT, ONLOAD -/
  | bool (b : Bool)
  /-- the stored value of WRITEREG, the value of a read -/
  | half (v : Half)
  /-- the count of PROCESS, the cost of a dispatched command -/
  | cycles (c : Cycles)
deriving DecidableEq, Repr

/-- One thing an agent outside the block does (spec/60_exceptions.md rule R148). -/
inductive Event where
  /-- the host or the scheduler calls an operation by name -/
  | call (op : HostCall)
  /-- the CPU side stores to the register file (`WR reg, v` where the size is `half`) -/
  | store (size : AccessSize) (offset : Offset) (value : BitVec 32)
  /-- the CPU side reads the 16-bit register at an offset (`RD reg`) -/
  | load (offset : Offset)
  /-- bytes of the peer arrive on the data channel (spec/10_state.md rule R22) -/
  | peerBytes (bs : List Byte)
  /-- the peer's next clock-read outcome arrives (rule R23) -/
  | peerClock (r : ClockRead)
  /-- the environment decides one coming data-in read: true = it fails (rule R22, spec/92_eei_decisions.md D25) -/
  | readDecision (fails : Bool)
  /-- the console resets the register file (rule R26, spec/70_reset_and_hazards.md rule R160 (4)) -/
  | consoleReset
deriving DecidableEq, Repr

/-- The bytes of the register file outside the six link registers: (offset, byte) pairs in one canonical form. -/
abbrev Memory := List Host.Cell

/-- The whole machine. -/
structure State where
  /-- a block exists: CREATE has happened and DESTROY has not (spec/40_link_lifecycle.md rule R86) -/
  created : Bool
  /-- `dataChannel` (spec/10_state.md rule R18) -/
  dataChannel : Channel
  /-- `clockChannel` (rule R18) -/
  clockChannel : Channel
  /-- NEC, `nextEventCountdown` (rule R12) -/
  nec : Cycles
  /-- CSR, `clockSliceRemaining` (rule R13) -/
  csr : Cycles
  /-- the six link registers (rules R14 to R17) -/
  regs : LinkRegs
  /-- the other bytes of the register file (spec/20_memory.md rules R40, R54; log entry 6) -/
  mem : Memory
  /-- RXQ, oldest byte first (rule R22) -/
  rxq : List Byte
  /-- CKQ, oldest outcome first (rule R23) -/
  ckq : List ClockRead
  /-- TXT, every byte presented for sending (rule R24) -/
  txt : List Byte
  /-- IRQT, every raise event (rule R25) -/
  irqt : List IrqEvent
  /-- what the last operation returned (log entry 7) -/
  result : Result
  /-- what the agents outside do next, in the one total order of spec/20_memory.md rule R48 (log entry 1) -/
  agenda : List Event
  /-- the environment's decisions for the coming data-in reads (log entry 8) -/
  readFails : List Bool
  /-- how many free values were drawn (log entries 4 and 9) -/
  draws : Nat
deriving DecidableEq, Repr

/-- The machine after the console's reset: the register file at REGFILE_RESET (spec/70_reset_and_hazards.md rule R163), no
block yet, so channels absent and every queue and trace empty (spec/10_state.md rule R26); the values the spec does not
give are those of log entries 3, 6, 7, 8 and 9. -/
def State.reset : State where
  created := false
  dataChannel := .absent
  clockChannel := .absent
  nec := 0
  csr := 0
  regs := Config.resetRegs
  mem := []
  rxq := []
  ckq := []
  txt := []
  irqt := []
  result := .nothing
  agenda := []
  readFails := []
  draws := 0

end Sys2Proof.Machine
end

