-- ==== Sys2Proof/Machine/Flags.lean ====
section
/-! DEFINITION. The flag bits of JOYCNT and JOYSTAT (spec/10_state.md rules R14, R15, R20) and the values the register-write
interception stores (spec/41_register_write.md rules R90, R91). -/

namespace Sys2Proof.Machine

/-! ## Bit masks -/

/-- JOYCNT bit 0, RST. -/
def rstMask : Half := 0x0001

/-- JOYCNT bit 1, RCV. -/
def rcvMask : Half := 0x0002

/-- JOYCNT bit 2, SND. -/
def sndMask : Half := 0x0004

/-- JOYCNT bits 2:0, the write-one-to-clear event flags. -/
def eventMask : Half := 0x0007

/-- JOYCNT bit 6, IEN. -/
def ienMask : Half := 0x0040

/-- JOYSTAT bit 1, RXA. -/
def rxaMask : Half := 0x0002

/-- JOYSTAT bit 3, TXP. -/
def txpMask : Half := 0x0008

/-- JOYSTAT bits 5:4, GPF. -/
def gpfMask : Half := 0x0030

/-- JOYCNT bits no operation can change: 5:3 and 15:7 (rule R14). -/
def joycntUndocumented : Half := 0xFFB8

/-- JOYSTAT bits no operation can change: 0, 2 and 15:6 (rule R15). -/
def joystatUndocumented : Half := 0xFFC5

/-! ## Reading flags -/

/-- JOYCNT.IEN, the only bit the block tests (rule R20, spec/60_exceptions.md rule R141). -/
def ienOf (joycnt : Half) : Bool := joycnt.getLsbD 6

/-! ## Setting and clearing flags -/

/-- Set the bits of a mask. -/
def setBits (mask old : Half) : Half := old ||| mask

/-- Clear the bits of a mask. -/
def clearBits (mask old : Half) : Half := old &&& ~~~mask

/-! ## What the interception stores -/

/-- WR_JOYCNT's stored value (rule R90): IEN as written, a written 1 clears an event flag, every other bit kept. -/
def joycntStored (old value : Half) : Half :=
  (value &&& ienMask) ||| (old &&& ~~~(value &&& eventMask) &&& ~~~ienMask)

/-- WR_JOYSTAT's stored value (rule R91): GPF as written, every other bit kept. -/
def joystatStored (old value : Half) : Half :=
  (value &&& gpfMask) ||| (old &&& ~~~gpfMask)

end Sys2Proof.Machine
end

