-- ==== Sys2Proof/Machine/Operands.lean ====
section
/-! DEFINITION. Byte order and the assembly of payloads, grants and words (spec/00_scope.md rule R7, spec/20_memory.md rule
R42, spec/30_encoding.md rules R63, R65, R69). -/

namespace Sys2Proof.Machine

/-- `lo8(v)`. -/
def lo8 (v : Half) : Byte := v.setWidth 8

/-- `hi8(v)`. -/
def hi8 (v : Half) : Byte := (v >>> 8).setWidth 8

/-- `le16(b0, b1)`. -/
def le16 (b0 b1 : Byte) : Half := b0.setWidth _ ||| (b1.setWidth _ <<< 8)

/-- `be32s(b0, b1, b2, b3)`, read as signed with `BitVec.toInt`. -/
def be32s (b0 b1 b2 b3 : Byte) : BitVec 32 :=
  (b0.setWidth 32 <<< 24) ||| (b1.setWidth 32 <<< 16) ||| (b2.setWidth 32 <<< 8) ||| b3.setWidth 32

/-- Byte `k` of a RECV payload of which `p` arrived: `p[k]` where it arrived, else the draw of its position
(spec/43_commands.md rule R124). -/
def payloadByte (p : List Byte) (draws k : Nat) : Byte :=
  match p[k]? with
  | some b => b
  | none => Config.freeByte (draws + (k - p.length))

/-- The 32-bit word of two halves, high half first (spec/10_state.md rules R16, R17). -/
def wordOf (hi lo : Half) : BitVec 32 := (hi.setWidth 32 <<< 16) ||| lo.setWidth 32

/-- The bytes a peer's `RECV w` puts on the data-in port (rule R69). -/
def recvBytes (w : BitVec 32) : List Byte :=
  [0x15, w.setWidth 8, (w >>> 8).setWidth 8, (w >>> 16).setWidth 8, (w >>> 24).setWidth 8]

/-- The outcome a peer's `GRANT n` puts on the clock-in port (rule R69, format G of rule R65). -/
def grantRead (n : BitVec 32) : ClockRead :=
  .word ((n >>> 24).setWidth 8) ((n >>> 16).setWidth 8) ((n >>> 8).setWidth 8) (n.setWidth 8)

end Sys2Proof.Machine
end

