-- ==== Sys2Proof/Machine/Ops.lean ====
section
/-! DEFINITION. The named operations over the state: counters, registers, the register file as bytes, the ports, the
interrupt output, and the guards of the host operations. There is no exception to take or return from
(spec/60_exceptions.md rules R143, R146): the interrupt output below is all the block has of one. -/

namespace Sys2Proof.Machine

/-- What an operation answers. -/
abbrev Answer := Host.Outcome State Fault Refusal

/-! ## Counter arithmetic (spec/42_sequencer.md rule R110) -/

/-- The least counter value, `-2^(CW-1)`. -/
def minCounter : Int := -(2 ^ (Config.params.cw - 1) : Nat)

/-- The greatest counter value, `2^(CW-1) - 1`. -/
def maxCounter : Int := (2 ^ (Config.params.cw - 1) : Nat) - 1

/-- An exact integer as a counter value, or nothing where it leaves the range of `CW` signed bits. -/
def narrow (z : Int) : Option Cycles :=
  if minCounter ≤ z ∧ z ≤ maxCounter then some (BitVec.ofInt _ z) else none

/-- Exact addition of an integer (a cost, or a grant read as signed) to a counter value. -/
def addCycles (a : Cycles) (z : Int) : Option Cycles := narrow (a.toInt + z)

/-- Exact subtraction of counter values. -/
def subCycles (a b : Cycles) : Option Cycles := narrow (a.toInt - b.toInt)

/-- The smaller of two counter values, as signed integers (the clamp of rule R108). -/
def minCycles (a b : Cycles) : Cycles := if b.toInt < a.toInt then b else a

/-- A number of cycles of the configuration as a counter value. -/
def cyclesOf (n : Nat) : Cycles := BitVec.ofNat _ n

/-- The idle grain, 600 (rule R107). -/
def idleGrain : Cycles := cyclesOf (Config.params.timing.idleBits * Config.params.timing.cyclesPerBit)

/-! ## Field updates -/

def State.setRegs (s : State) (r : LinkRegs) : State := { s with regs := r }

def State.setMem (s : State) (m : Memory) : State := { s with mem := m }

def State.setNec (s : State) (c : Cycles) : State := { s with nec := c }

def State.setCsr (s : State) (c : Cycles) : State := { s with csr := c }

/-- Both channel handles at once (spec/10_state.md rule R18). -/
def State.setChannels (s : State) (c : Channel) : State := { s with dataChannel := c, clockChannel := c }

/-- Empty both input queues (spec/92_eei_decisions.md D24). -/
def State.emptyQueues (s : State) : State := { s with rxq := [], ckq := [] }

def State.setRxq (s : State) (q : List Byte) : State := { s with rxq := q }

def State.setCkq (s : State) (q : List ClockRead) : State := { s with ckq := q }

def State.setReadFails (s : State) (d : List Bool) : State := { s with readFails := d }

def State.setAgenda (s : State) (a : List Event) : State := { s with agenda := a }

def State.setCreated (s : State) (b : Bool) : State := { s with created := b }

def State.setDraws (s : State) (n : Nat) : State := { s with draws := n }

/-- Give a value back to the caller (log entry 7). -/
def State.returning (s : State) (r : Result) : State := { s with result := r }

/-- `TxSend(bytes)` (spec/10_state.md rule R24, spec/43_commands.md rule R127). -/
def State.txSend (s : State) (bs : List Byte) : State := { s with txt := s.txt ++ bs }

/-- `raise IRQ_SIO`: one event on IRQT and nothing else (spec/60_exceptions.md rule R140). -/
def State.raiseSio (s : State) : State := { s with irqt := s.irqt ++ [.sio] }

/-! ## The six link registers (spec/00_scope.md rule R8, `REG[name]`) -/

def LinkRegs.get (r : LinkRegs) : LinkReg → Half
  | .joycnt => r.joycnt
  | .joystat => r.joystat
  | .transLo => r.joyTransLo
  | .transHi => r.joyTransHi
  | .recvLo => r.joyRecvLo
  | .recvHi => r.joyRecvHi

def LinkRegs.set (r : LinkRegs) (n : LinkReg) (v : Half) : LinkRegs :=
  match n with
  | .joycnt => { r with joycnt := v }
  | .joystat => { r with joystat := v }
  | .transLo => { r with joyTransLo := v }
  | .transHi => { r with joyTransHi := v }
  | .recvLo => { r with joyRecvLo := v }
  | .recvHi => { r with joyRecvHi := v }

/-- `REG[name]`. -/
def State.reg (s : State) (n : LinkReg) : Half := LinkRegs.get s.regs n

/-- `REG[name] <- v`. -/
def State.setReg (s : State) (n : LinkReg) (v : Half) : State := s.setRegs (LinkRegs.set s.regs n v)

/-! ## The register file as bytes (spec/20_memory.md rules R40, R42, R54) -/

/-- What a byte that nothing has written reads as, outside the six registers (log entry 6). -/
def unlistedByte : Byte := 0x00

/-- The byte at an offset of the memory. -/
def memByte : Memory → Nat → Byte
  | [], _ => unlistedByte
  | (k, b) :: rest, a => if k = a then b else memByte rest a

/-- Put a cell before the rest of a memory, unless it holds what an unlisted byte reads as. -/
def consCell (a : Nat) (b : Byte) (rest : Memory) : Memory :=
  if b = unlistedByte then rest else (a, b) :: rest

/-- Write one byte, keeping the canonical form. -/
def memSetByte : Memory → Nat → Byte → Memory
  | [], a, b => consCell a b []
  | (k, x) :: rest, a, b =>
    if a < k then consCell a b ((k, x) :: rest)
    else if a = k then consCell a b rest
    else (k, x) :: memSetByte rest a b

/-- The canonical form: offsets strictly rising, no cell equal to what an unlisted offset reads as. -/
def Memory.wf : Memory → Bool
  | [] => true
  | (k, b) :: rest => b != unlistedByte && rest.all (fun c => k < c.1) && Memory.wf rest

/-- One byte of the register file, link registers included, each with its low byte at the even offset
(rule R42; log entry 21). -/
def State.fileByte (s : State) (offset : Offset) : Byte :=
  match regAt offset with
  | some r => lo8 (s.reg r)
  | none =>
    match regAt (offset - 1) with
    | some r => hi8 (s.reg r)
    | none => memByte s.mem offset.toNat

/-- `MemRead(offset, 2)` (rule R44): no side effect. MODEL'S CHOICE: outside the six registers the high byte is the one at
the next offset modulo 2^16, so a read at 0xFFFF takes it from 0x0000 (log entry 20). -/
def State.memRead (s : State) (offset : Offset) : Half :=
  le16 (s.fileByte offset) (s.fileByte (offset + 1))

/-- Write one byte outside the six registers. -/
def State.setFileByte (s : State) (offset : Offset) (b : Byte) : State :=
  s.setMem (memSetByte s.mem offset.toNat b)

/-- `MemWrite(offset, 2, v)` (rule R8): the named register, or two bytes of the rest of the file, the second one at the
next offset modulo 2^16 (log entry 20). -/
def State.memWrite (s : State) (offset : Offset) (v : Half) : State :=
  match regAt offset with
  | some r => s.setReg r v
  | none => (s.setFileByte offset (lo8 v)).setFileByte (offset + 1) (hi8 v)

/-! ## The input ports -/

/-- Both channels are connected (spec/40_link_lifecycle.md rule R86, `linked`). -/
def State.linked (s : State) : Bool := s.dataChannel == .connected && s.clockChannel == .connected

/-- The coming data-in read fails, by the environment's decision; with no decision waiting it delivers (log entry 8). -/
def State.readFailsNow (s : State) : Bool := s.readFails.headD false

/-- The bytes `RxRead(n)` gives (spec/10_state.md rule R22). -/
def State.rxBytes (s : State) (n : Nat) : List Byte := if s.readFailsNow then [] else s.rxq.take n

/-- The state after `RxRead(n)`: the given bytes are gone from RXQ, one decision is used up. -/
def State.afterRxRead (s : State) (n : Nat) : State :=
  (s.setRxq (s.rxq.drop (s.rxBytes n).length)).setReadFails s.readFails.tail

/-- What `ClockPoll()` gives: the oldest outcome of CKQ, `none` where it is empty (rule R23; log entry 10). -/
def State.clockRead (s : State) : ClockRead := s.ckq.headD .nothing

/-- The state after `ClockPoll()`. -/
def State.afterClockPoll (s : State) : State := s.setCkq s.ckq.tail

/-! ## The interrupt output and the status byte -/

/-- `if REG[JOYCNT][6] == 1: raise IRQ_SIO` (spec/60_exceptions.md rule R141). -/
def State.raiseIfEnabled (s : State) : State := if ienOf (s.reg .joycnt) then s.raiseSio else s

/-- The status byte S, taken at this point (spec/43_commands.md rule R120; log entry 16). -/
def State.statusByte (s : State) : Byte := lo8 (s.reg .joystat)

/-- Set bits of a link register. -/
def State.setFlag (s : State) (n : LinkReg) (mask : Half) : State := s.setReg n (setBits mask (s.reg n))

/-- Clear bits of a link register. -/
def State.clearFlag (s : State) (n : LinkReg) (mask : Half) : State := s.setReg n (clearBits mask (s.reg n))

/-! ## Guards -/

/-- Run an operation of the block, refused by name where no block exists
(spec/40_link_lifecycle.md rules R83, R86; log entry 13). -/
def whenCreated (s : State) (k : Answer) : Answer := if s.created then k else .refused .noBlock

/-- Commit an intercepted value and return it (spec/20_memory.md rule R45). -/
def State.commit (s : State) (n : LinkReg) (stored : Half) : State := (s.setReg n stored).returning (.half stored)

end Sys2Proof.Machine
end

