-- ==== Sys2Proof/Machine/Lifecycle.lean ====
section
/-! DEFINITION. The link lifecycle operations (spec/40_link_lifecycle.md). None of them touches the register file
(spec/70_reset_and_hazards.md rule R164). -/

namespace Sys2Proof.Machine

/-- What TEARDOWN does (rule R82): both channels absent, both input queues empty. -/
def closeChannels (s : State) : State := (s.setChannels .absent).emptyQueues

/-- A new block (rule R80): channels absent, queues and traces empty, both counters unspecified, each a free value
(spec/92_eei_decisions.md D6; log entry 4). -/
def newBlock (s : State) : State :=
  { (closeChannels s) with
    created := true
    txt := []
    irqt := []
    nec := Config.freeCycles s.draws
    csr := Config.freeCycles (s.draws + 1)
    draws := s.draws + 2 }

/-- What CONNECT does (rule R81): close what is connected, then both channels or neither; a successful CONNECT starts with
empty queues. -/
def connectWith (outcome : ConnectOutcome) (s : State) : State :=
  let s0 := if s.dataChannel == .connected || s.clockChannel == .connected then closeChannels s else s
  match outcome with
  | .ok => ((s0.setChannels .connected).emptyQueues).returning (.bool true)
  | .failData => (s0.setChannels .absent).returning (.bool false)
  | .failClock => (s0.setChannels .absent).returning (.bool false)

/-- CREATE (rule R80): admitted always; a second CREATE is a new block (log entry 13). -/
def execCreate (s : State) : Answer := .next ((newBlock s).returning .nothing)

/-- CONNECT (rule R81). -/
def execConnect (outcome : ConnectOutcome) (s : State) : Answer := whenCreated s (.next (connectWith outcome s))

/-- TEARDOWN (rule R82). -/
def execTeardown (s : State) : Answer := whenCreated s (.next ((closeChannels s).returning .nothing))

/-- DESTROY (rule R83): TEARDOWN, and the block ceases to exist. -/
def execDestroy (s : State) : Answer :=
  whenCreated s (.next (((closeChannels s).setCreated false).returning .nothing))

/-- ONLOAD (rule R84): both counters to 0, true returned. -/
def execOnload (s : State) : Answer := whenCreated s (.next (((s.setNec 0).setCsr 0).returning (.bool true)))

end Sys2Proof.Machine
end

