-- ==== Sys2Proof/Machine/RegisterWrite.lean ====
section
/-! DEFINITION. The register-write interception together with the console's commit (spec/41_register_write.md): each
meaning is the whole atomic operation, and returns the stored value. -/

namespace Sys2Proof.Machine

/-- A write of a transmit register sets JOYSTAT.TXP before the commit (rules R92, R93). -/
def markTransmitPending (s : State) : State := s.setFlag .joystat txpMask

/-- WR_JOYCNT (rule R90). -/
def execWrJoycnt (value : Half) (s : State) : Answer :=
  whenCreated s (.next (s.commit .joycnt (joycntStored (s.reg .joycnt) value)))

/-- WR_JOYSTAT (rule R91). -/
def execWrJoystat (value : Half) (s : State) : Answer :=
  whenCreated s (.next (s.commit .joystat (joystatStored (s.reg .joystat) value)))

/-- WR_JOY_TRANS_LO (rule R92). -/
def execWrJoyTransLo (value : Half) (s : State) : Answer :=
  whenCreated s (.next ((markTransmitPending s).commit .transLo value))

/-- WR_JOY_TRANS_HI (rule R93). -/
def execWrJoyTransHi (value : Half) (s : State) : Answer :=
  whenCreated s (.next ((markTransmitPending s).commit .transHi value))

/-- WR_OTHER (rule R94): the value passes unchanged; a 16-bit store that cuts one of the six registers is refused
(spec/20_memory.md rule R43, spec/60_exceptions.md rule R145). -/
def execWrOther (offset : Offset) (value : Half) (s : State) : Answer :=
  whenCreated s
    (if cutsLink offset then .refused .unsupportedAccessSize
     else .next ((s.memWrite offset value).returning (.half value)))

end Sys2Proof.Machine
end

