-- ==== Sys2Proof/Machine/Commands.lean ====
section
/-! DEFINITION. The command dispatcher (spec/43_commands.md): each command's effects in the order its rule lists them, and
the cycle cost it returns. -/

namespace Sys2Proof.Machine

/-- What a dispatched command leaves: its cycle cost and the state. -/
structure Dispatched where
  cost : Cycles
  state : State

/-- The response shared by RESET and POLL (rule R128): the identifier bytes and the status byte (rule R64). -/
def pollResponse (s : State) : State := s.txSend [0x00, 0x04, s.statusByte]

/-- RESET (rule R122): RST, the interrupt, the response. -/
def resetCommand (s : State) : Dispatched where
  cost := cyclesOf Config.params.cost.reset
  state := pollResponse (s.setFlag .joycnt rstMask).raiseIfEnabled

/-- POLL (rule R123). -/
def pollCommand (s : State) : Dispatched where
  cost := cyclesOf Config.params.cost.poll
  state := pollResponse s

/-- Put the payload `p`, as far as it arrived, into JOY_RECV; each missing byte is drawn (rule R124). -/
def storePayload (p : List Byte) (s : State) : State :=
  let q := payloadByte p s.draws
  ((s.setReg .recvLo (le16 (q 0) (q 1))).setReg .recvHi (le16 (q 2) (q 3))).setDraws (s.draws + (4 - p.length))

/-- The first half of RECV: both flags set. -/
def recvFlagged (s : State) : State := (s.setFlag .joycnt rcvMask).setFlag .joystat rxaMask

/-- The payload read of RECV and the register write. -/
def recvPayload (s : State) : State := storePayload (s.rxBytes 4) (s.afterRxRead 4)

/-- Send the status byte alone. -/
def statusResponse (s : State) : State := s.txSend [s.statusByte]

/-- RECV (rule R124): flags, payload, response, interrupt. -/
def recvCommand (s : State) : Dispatched where
  cost := cyclesOf Config.params.cost.recv
  state := (statusResponse (recvPayload (recvFlagged s))).raiseIfEnabled

/-- The TRANS response (rule R64): both transmit halves, low byte first, then the status byte. -/
def transResponse (s : State) : State :=
  s.txSend [lo8 (s.reg .transLo), hi8 (s.reg .transLo), lo8 (s.reg .transHi), hi8 (s.reg .transHi), s.statusByte]

/-- TRANS (rule R125): SND set, TXP cleared, response, interrupt. -/
def transCommand (s : State) : Dispatched where
  cost := cyclesOf Config.params.cost.trans
  state := (transResponse ((s.setFlag .joycnt sndMask).clearFlag .joystat txpMask)).raiseIfEnabled

/-- UNRECOGNIZED (rule R126): the cost alone. -/
def unrecognizedCommand (s : State) : Dispatched where
  cost := cyclesOf Config.params.cost.unrecognized
  state := s

/-- `Dispatch(b)` (rule R120): decode the byte (spec/30_encoding.md rule R67) and run the command;
a byte decodes to nothing but the five commands. -/
def dispatch (b : Byte) (s : State) : Dispatched :=
  match decodeCommand b with
  | .reset => resetCommand s
  | .poll => pollCommand s
  | .recv => recvCommand s
  | .trans => transCommand s
  | _ => unrecognizedCommand s

/-- A command's answer as an operation of its own: its effects, and its cost returned (log entry 28). -/
def dispatchedAnswer (d : Dispatched) : Answer := .next (d.state.returning (.cycles d.cost))

/-- The meaning of RESET. -/
def execReset (s : State) : Answer := dispatchedAnswer (resetCommand s)

/-- The meaning of POLL. -/
def execPoll (s : State) : Answer := dispatchedAnswer (pollCommand s)

/-- The meaning of RECV. -/
def execRecv (s : State) : Answer := dispatchedAnswer (recvCommand s)

/-- The meaning of TRANS. -/
def execTrans (s : State) : Answer := dispatchedAnswer (transCommand s)

/-- The meaning of UNRECOGNIZED, whatever the byte. -/
def execUnrecognized (_b : Byte) (s : State) : Answer := dispatchedAnswer (unrecognizedCommand s)

end Sys2Proof.Machine
end

