-- ==== Sys2Proof/Machine/Sequencer.lean ====
section
/-! DEFINITION. PROCESS, the cycle-budget counter and event-timing sequencer (spec/42_sequencer.md): one definition per
step of rule R100. A step answers nothing where a counter result leaves the `CW`-bit range (rule R110). -/

namespace Sys2Proof.Machine

/-- Step 1 (rule R101): subtract the elapsed cycles from both counters. -/
def elapse (e : Cycles) (s : State) : Option State :=
  match subCycles s.nec e, subCycles s.csr e with
  | some n, some c => some ((s.setNec n).setCsr c)
  | _, _ => none

/-- A processing step is due (rule R102). -/
def isDue (s : State) : Bool := decide (s.nec.toInt ≤ 0)

/-- Add a grant to CSR (rule R104); `none` and `short` change nothing. -/
def takeGrant (r : ClockRead) (s : State) : Option State :=
  match r with
  | .nothing => some s
  | .short => some s
  | .word b0 b1 b2 b3 => (addCycles s.csr (be32s b0 b1 b2 b3).toInt).map s.setCsr

/-- Step 3a (rules R103, R104): poll the clock-in port once, only when the budget is spent. -/
def grantStep (s : State) : Option State :=
  if s.csr.toInt ≤ 0 then takeGrant s.clockRead s.afterClockPoll else some s

/-- Add a cost to NEC (rules R106, R107). -/
def chargeNec (cost : Cycles) (s : State) : Option State := (addCycles s.nec cost.toInt).map s.setNec

/-- Step 3b (rules R105 to R107): read one command byte and dispatch it, or charge the idle grain. -/
def commandStep (s : State) : Option State :=
  match s.rxBytes 1 with
  | [] => chargeNec idleGrain (s.afterRxRead 1)
  | b :: _ => chargeNec (dispatch b (s.afterRxRead 1)).cost (dispatch b (s.afterRxRead 1)).state

/-- Step 3c (rule R108): NEC never exceeds CSR. -/
def clampNec (s : State) : State := s.setNec (minCycles s.nec s.csr)

/-- Steps 2 and 4 (rules R102, R109): give NEC back to the scheduler. -/
def returnNec (s : State) : State := s.returning (.cycles s.nec)

/-- Steps 3a to 3c, the processing step. -/
def processingStep (s : State) : Option State := ((grantStep s).bind commandStep).map clampNec

/-- Steps 1 to 4 of a linked block. -/
def tick (e : Cycles) (s : State) : Option State :=
  (elapse e s).bind (fun s1 => (if isDue s1 then processingStep s1 else some s1).map returnNec)

/-- PROCESS (rule R100): refused while a channel is absent, and where a counter overflows (rule R144). -/
def execProcess (e : Cycles) (s : State) : Answer :=
  whenCreated s
    (if s.linked then
      match tick e s with
      | some t => .next t
      | none => .refused .counterOverflow
     else .refused .notConnected)

end Sys2Proof.Machine
end

