-- ==== Sys2Proof/Machine/Dispatch.lean ====
section
/-! DEFINITION. One arm per operation, each one direct call of its meaning. -/

namespace Sys2Proof.Machine

def exec (i : Instr) (s : State) : Host.Outcome State Fault Refusal :=
  match i with
  | .reset => Sys2Proof.Machine.execReset s
  | .poll => Sys2Proof.Machine.execPoll s
  | .recv => Sys2Proof.Machine.execRecv s
  | .trans => Sys2Proof.Machine.execTrans s
  | .unrecognized b => Sys2Proof.Machine.execUnrecognized b s
  | .wrJoycnt value => Sys2Proof.Machine.execWrJoycnt value s
  | .wrJoystat value => Sys2Proof.Machine.execWrJoystat value s
  | .wrJoyTransLo value => Sys2Proof.Machine.execWrJoyTransLo value s
  | .wrJoyTransHi value => Sys2Proof.Machine.execWrJoyTransHi value s
  | .wrOther offset value => Sys2Proof.Machine.execWrOther offset value s
  | .create => Sys2Proof.Machine.execCreate s
  | .connect outcome => Sys2Proof.Machine.execConnect outcome s
  | .teardown => Sys2Proof.Machine.execTeardown s
  | .destroy => Sys2Proof.Machine.execDestroy s
  | .onload => Sys2Proof.Machine.execOnload s
  | .process elapsed => Sys2Proof.Machine.execProcess elapsed s

end Sys2Proof.Machine
end

