-- ==== Sys2Proof/Machine/Agenda.lean ====
section
/-! DEFINITION. What the agents outside do to the block (spec/60_exceptions.md rules R148, R150), one event a step in the
one total order of spec/20_memory.md rule R48, and how one operation is placed as the next. -/

namespace Sys2Proof.Machine

/-! ## The peer and the environment -/

/-- Bytes arrive at the end of RXQ; nothing arrives on a closed channel (spec/10_state.md rule R22; log entry 22). -/
def arriveBytes (bs : List Byte) (s : State) : State :=
  if s.dataChannel == .connected then s.setRxq (s.rxq ++ bs) else s

/-- A clock-read outcome arrives at the end of CKQ; nothing arrives on a closed channel (rule R23; log entry 22). -/
def arriveClock (r : ClockRead) (s : State) : State :=
  if s.clockChannel == .connected then s.setCkq (s.ckq ++ [r]) else s

/-- The environment decides one more coming read (log entry 8). -/
def arriveDecision (fails : Bool) (s : State) : State := s.setReadFails (s.readFails ++ [fails])

/-! ## The console and the CPU side -/

/-- The console's reset of the register file (spec/70_reset_and_hazards.md rules R160 (4), R163; log entry 23). -/
def consoleReset (s : State) : State := (s.setRegs Config.resetRegs).setMem []

/-- A CPU-side read of the 16-bit register at an offset: the value is returned and nothing else changes
(spec/20_memory.md rule R44). -/
def loadHalf (offset : Offset) (s : State) : Answer :=
  if cutsLink offset then .refused .unsupportedAccessSize
  else .next (s.returning (.half (s.memRead offset)))

/-- Put an event after the first `gap` of the coming ones, or last where there are fewer. -/
def insertAfter (gap : Nat) (ev : Event) (coming : List Event) : List Event :=
  coming.take gap ++ ev :: coming.drop gap

/-- A CPU-side store (spec/20_memory.md rules R43, R45): the low half of a split 32-bit store is done now, and its high half
is an operation of its own that follows after `gap` other events, so a PROCESS may fall between the two (rule R47; log
entry 19). MODEL'S CHOICE: a byte store to a register that is none of the six is the console's alone and is performed also
while no block exists, where a 16-bit store to the same register is a WRITEREG and is refused (log entry 13). -/
def storeAny (size : AccessSize) (offset : Offset) (value : BitVec 32) (s : State) : Answer :=
  match decodeStore size offset value with
  | .one i => exec i s
  | .two gap low offset2 value2 =>
    exec low (s.setAgenda (insertAfter gap (.store .half offset2 (value2.setWidth 32)) s.agenda))
  | .plainByte o b => .next (s.setFileByte o b)
  | .unsupported => .refused .unsupportedAccessSize

/-! ## One event -/

/-- Serve one event. -/
def serve (ev : Event) (s : State) : Answer :=
  match ev with
  | .call op => exec (decodeCall op) s
  | .store size offset value => storeAny size offset value s
  | .load offset => loadHalf offset s
  | .peerBytes bs => .next (arriveBytes bs s)
  | .peerClock r => .next (arriveClock r s)
  | .readDecision fails => .next (arriveDecision fails s)
  | .consoleReset => .next (consoleReset s)

/-- One step: the head of the agenda is served; with nothing to serve the block does nothing
(spec/60_exceptions.md rule R153). -/
def serveNext (s : State) : Answer :=
  match s.agenda with
  | [] => .next s
  | ev :: rest => serve ev (s.setAgenda rest)

/-! ## Placing one operation as the next -/

/-- The bytes of a command row: its byte, and for RECV a payload of four zero bytes (spec/30_encoding.md rule R61). -/
def commandBytes (b : Byte) : List Byte := if b = 0x15 then [b, 0, 0, 0, 0] else [b]

/-- Make the very next step take the command byte `b`: a linked block right after ONLOAD, `b` at the head of RXQ, reads
that deliver, and a tick next on the agenda (spec/70_reset_and_hazards.md rules R162, R166; log entry 2). -/
def placeCommand (b : Byte) (s : State) : State :=
  { s with
    created := true
    dataChannel := .connected
    clockChannel := .connected
    nec := 0
    csr := 0
    rxq := commandBytes b ++ s.rxq
    readFails := []
    agenda := .call (.process 0) :: s.agenda }

/-- Make the very next step perform a 16-bit CPU-side store (log entry 2). -/
def placeStore (offset : Offset) (value : Half) (s : State) : State :=
  { s with
    created := true
    agenda := .store .half offset (value.setWidth 32) :: s.agenda }

/-- Make the very next step perform a named operation on an existing block (log entry 2). -/
def placeCall (op : HostCall) (s : State) : State :=
  { s with
    created := true
    agenda := .call op :: s.agenda }

/-- Make the very next step run a coded operation. -/
def placeCoded (c : Coded) (s : State) : State :=
  match c with
  | .command b => placeCommand b s
  | .write offset value => placeStore offset value s
  | .call op => placeCall op s

/-- Make the very next step run the operation of a table word; a word of no row changes nothing. -/
def placeWord (nbits w : Nat) (s : State) : State :=
  match codedWord nbits w with
  | some c => placeCoded c s
  | none => s

end Sys2Proof.Machine
end

