-- ==== Sys2Proof/Machine/Script.lean ====
section
/-! DEFINITION. The notation of spec/30_encoding.md rule R69 as events, and the pseudo-operations of rule R70. -/

namespace Sys2Proof.Machine

/-! ## Peer-side items (rule R69) -/

def peerReset : Event := .peerBytes [0xFF]
def peerPoll : Event := .peerBytes [0x00]
def peerTrans : Event := .peerBytes [0x14]
def peerRecv (w : BitVec 32) : Event := .peerBytes (recvBytes w)
def peerByte (b : Byte) : Event := .peerBytes [b]
def peerGrant (n : BitVec 32) : Event := .peerClock (grantRead n)
def peerGrantShort : Event := .peerClock .short

/-! ## CPU-side and host-side items (rule R69) -/

def wr (r : LinkReg) (v : Half) : Event := .store .half (addrOf r) (v.setWidth 32)
def rd (r : LinkReg) : Event := .load (addrOf r)
def tickBy (e : Cycles) : Event := .call (.process e)

/-! ## Pseudo-operations (rule R70) -/

/-- `WR32 JOY_TRANS, w`: the low half, then the high half. -/
def wr32Trans (w : BitVec 32) : List Event :=
  [wr .transLo (w.setWidth _), wr .transHi ((w >>> 16).setWidth _)]

/-- `ACK flags` in a state: clear the named flags and keep IEN as it is. -/
def ack (flags : Half) (s : State) : Event :=
  wr .joycnt ((s.reg .joycnt &&& ienMask) ||| (flags &&& eventMask))

/-- The next `e` of `RUN`: the previous return value, or 0 where that was below 0. -/
def nextElapsed (returned : Cycles) : Cycles := if returned.toInt < 0 then 0 else returned

/-- `RUN` has come to its end: RXQ is empty and the tick returned the idle grain or a clamped value. MODEL'S CHOICE (log
entry 29): a value is taken as clamped wherever NEC equals CSR after the tick, so also in a tie, where the clamp of
spec/42_sequencer.md rule R108 changed nothing, and after a tick that was not due; and as the idle grain wherever it
is 600. -/
def runDone (t : State) : Bool := t.rxq.isEmpty && (t.nec == idleGrain || t.nec == t.csr)

/-- `RUN`, for at most `fuel` ticks, the first of them with `e`; the bound, and that a refused tick ends it, are the model's
choice (log entry 29). -/
def runTicks : Nat → Cycles → State → Answer
  | 0, _, s => .next s
  | fuel + 1, e, s =>
    match exec (.process e) s with
    | .next t => if runDone t then .next t else runTicks fuel (nextElapsed t.nec) t
    | .fault f => .fault f
    | .refused r => .refused r

end Sys2Proof.Machine
end

