-- ==== Sys2Proof/Machine/Step.lean ====
section
/-! DEFINITION. One step of the machine, and how the host places an operation as the next one. -/

namespace Sys2Proof.Machine

/-- One step: one event of the agenda (log entry 1). -/
def step (s : State) : Host.Outcome State Fault Refusal := serveNext s

/-- The state whose very next step runs the operation with the bits `w` of a table row (log entry 2). -/
def State.withFetchWord (s : State) (nbits w : Nat) : State := placeWord nbits w s

end Sys2Proof.Machine
end

