-- ==== Sys2Proof/Safety.lean ====
section
/-! DEFINITION. The terms claims use: which operations the lifecycle admits (spec/40_link_lifecycle.md rule R86), the
invariants of the state, which operations may write what. -/

namespace Sys2Proof

/-! ## Admission -/

/-- The operation is one of the five wire commands, which run only inside PROCESS (spec/00_scope.md rule R2). -/
def Instr.isCommand : Instr → Bool
  | .reset => true
  | .poll => true
  | .recv => true
  | .trans => true
  | .unrecognized _ => true
  | .wrJoycnt _ => false
  | .wrJoystat _ => false
  | .wrJoyTransLo _ => false
  | .wrJoyTransHi _ => false
  | .wrOther _ _ => false
  | .create => false
  | .connect _ => false
  | .teardown => false
  | .destroy => false
  | .onload => false
  | .process _ => false

/-- The operation is a CPU-side register write. -/
def Instr.isWrite : Instr → Bool
  | .reset => false
  | .poll => false
  | .recv => false
  | .trans => false
  | .unrecognized _ => false
  | .wrJoycnt _ => true
  | .wrJoystat _ => true
  | .wrJoyTransLo _ => true
  | .wrJoyTransHi _ => true
  | .wrOther _ _ => true
  | .create => false
  | .connect _ => false
  | .teardown => false
  | .destroy => false
  | .onload => false
  | .process _ => false

/-- The operation is one of the five lifecycle operations. -/
def Instr.isLifecycle : Instr → Bool
  | .reset => false
  | .poll => false
  | .recv => false
  | .trans => false
  | .unrecognized _ => false
  | .wrJoycnt _ => false
  | .wrJoystat _ => false
  | .wrJoyTransLo _ => false
  | .wrJoyTransHi _ => false
  | .wrOther _ _ => false
  | .create => true
  | .connect _ => true
  | .teardown => true
  | .destroy => true
  | .onload => true
  | .process _ => false

end Sys2Proof

namespace Sys2Proof.Machine

/-! ## Answers -/

/-- The operation completes. -/
def Completes (a : Answer) : Prop := ∃ t, a = .next t

/-! ## Invariants -/

/-- Both channel handles agree, and nothing waits on an absent channel (spec/10_state.md rule R18,
spec/40_link_lifecycle.md rule R82). -/
def State.linkOk (s : State) : Prop :=
  s.dataChannel = s.clockChannel ∧ (s.dataChannel = .absent → s.rxq = [] ∧ s.ckq = [])

/-- No block is connected before it exists (spec/40_link_lifecycle.md rule R86). -/
def State.lifeOk (s : State) : Prop := s.created = false → s.dataChannel = .absent

/-- The rest of the register file is in its canonical form, within the 16-bit offsets, and lists no byte of a link
register. -/
def State.memOk (s : State) : Prop :=
  Memory.wf s.mem = true ∧ ∀ c ∈ s.mem, c.1 < 65536 ∧ byteOwner (BitVec.ofNat 16 c.1) = none

/-- The invariant of the machine. -/
def State.Inv (s : State) : Prop := s.linkOk ∧ s.lifeOk ∧ s.memOk

/-- `NEC <= CSR` (spec/10_state.md rule R27). -/
def State.budgetOk (s : State) : Prop := s.nec.toInt ≤ s.csr.toInt

/-- The next event is a CREATE, whose counters the spec leaves unspecified. -/
def State.createsNext (s : State) : Prop := s.agenda.head? = some (.call .create)

/-! ## What an operation may write -/

/-- The link registers an operation may write (spec/10_state.md rule R19, spec/70_reset_and_hazards.md rule R182). -/
def writtenRegs : Instr → List LinkReg
  | .reset => [.joycnt]
  | .poll => []
  | .recv => [.joycnt, .joystat, .recvLo, .recvHi]
  | .trans => [.joycnt, .joystat]
  | .unrecognized _ => []
  | .wrJoycnt _ => [.joycnt]
  | .wrJoystat _ => [.joystat]
  | .wrJoyTransLo _ => [.joystat, .transLo]
  | .wrJoyTransHi _ => [.joystat, .transHi]
  | .wrOther offset _ => (regAt offset).toList
  | .create => []
  | .connect _ => []
  | .teardown => []
  | .destroy => []
  | .onload => []
  | .process _ => [.joycnt, .joystat, .recvLo, .recvHi]

/-- The two bytes of a link register in the register file. -/
def regBytes (r : LinkReg) : List Offset := [addrOf r, addrOf r + 1]

/-- The bytes of the register file an operation may store to. -/
def storedBytes : Instr → List Offset
  | .reset => regBytes .joycnt
  | .poll => []
  | .recv => regBytes .joycnt ++ regBytes .joystat ++ regBytes .recvLo ++ regBytes .recvHi
  | .trans => regBytes .joycnt ++ regBytes .joystat
  | .unrecognized _ => []
  | .wrJoycnt _ => regBytes .joycnt
  | .wrJoystat _ => regBytes .joystat
  | .wrJoyTransLo _ => regBytes .joystat ++ regBytes .transLo
  | .wrJoyTransHi _ => regBytes .joystat ++ regBytes .transHi
  | .wrOther offset _ => [offset, offset + 1]
  | .create => []
  | .connect _ => []
  | .teardown => []
  | .destroy => []
  | .onload => []
  | .process _ => regBytes .joycnt ++ regBytes .joystat ++ regBytes .recvLo ++ regBytes .recvHi

/-- A counter value lies in the range of rule R110. -/
def inRange (z : Int) : Prop := -2147483648 ≤ z ∧ z ≤ 2147483647

/-- The command byte the next data-in read gives, if it gives one (spec/42_sequencer.md rule R105). -/
def State.commandByte (s : State) : Option Byte := if s.readFailsNow then none else s.rxq.head?

/-- The grant of the next clock poll, as an exact integer; 0 where the poll gives `none` or `short`
(spec/42_sequencer.md rule R104). -/
def State.nextGrant (s : State) : Int :=
  match s.clockRead with
  | .nothing => 0
  | .short => 0
  | .word b0 b1 b2 b3 => (be32s b0 b1 b2 b3).toInt

end Sys2Proof.Machine
end

