-- ==== Sys2Proof/Certificates/Slice0/Obligations.lean ====
section
/-! DEFINITION. The statements for the provers, from the numbered rules of spec/. A free value (`Config.freeByte`,
`Config.freeCycles`) has no body, so a statement that names one holds whatever it is. -/

open Sys2Proof Sys2Proof.Machine

/-! ## Decoding and encoding -/

/-- spec/30_encoding.md rule R67: the decoder, total on any byte. -/
def Obligations.CommandByteDecodesByTheOpcodeMap : Prop :=
  decodeCommand 0xFF = .reset ∧ decodeCommand 0x00 = .poll ∧ decodeCommand 0x14 = .trans ∧
    decodeCommand 0x15 = .recv ∧
    ∀ b : Byte, b ≠ 0xFF → b ≠ 0x00 → b ≠ 0x14 → b ≠ 0x15 → decodeCommand b = .unrecognized b

/-- spec/30_encoding.md rules R66, R71: every byte matches exactly one of the 20 rows of format C, and it is the row of
the operation the byte decodes to. -/
def Obligations.TableRowsPartitionTheCommandBytes : Prop :=
  ∀ b : Byte, (commandRows.filter (fun row => row.hits b)).map (fun row => row.name) = [(decodeCommand b).mnemonic]

/-- Words written out for one operation per format and family, from the command bytes of spec/30_encoding.md rule R62. The
offsets 0x0140, 0x0154 and 0x0150 are the defaults of parameters, from general knowledge (spec/20_memory.md rule R41, log
entry 11); the packing of offset and value into one word is the host's numbering (log entry 2). -/
def Obligations.WrittenOutWordsDecode : Prop :=
  decodeTableWord 8 0xFF = some .reset ∧ decodeTableWord 8 0x15 = some .recv ∧
    decodeTableWord 8 0x42 = some (.unrecognized 0x42) ∧
    decodeTableWord 16 0x0140 = some (.wrJoycnt 0) ∧
    decodeTableWord 32 0xBEEF0154 = some (.wrJoyTransLo 0xBEEF) ∧
    decodeTableWord 16 0x0150 = some (.wrOther 0x0150 0) ∧
    decode (.call (.process 600)) = .process 600

/-- spec/30_encoding.md sections 2, 6 and 8: no bit of an encoding is dropped. -/
def Obligations.DecodeOfEncodeIsTheOperation : Prop :=
  ∀ i : Instr, i.wf = true → decode (encode i) = i

/-- spec/30_encoding.md sections 2, 6 and 8: each coded form has one meaning, a well-formed one. -/
def Obligations.EncodeOfDecodeIsTheCodedForm : Prop :=
  ∀ c : Coded, encode (decode c) = c ∧ (decode c).wf = true

/-! ## The machine: reset, one step -/

/-- The state after the console's reset: registers at the default of REGFILE_RESET (spec/92_eei_decisions.md D5), no
block, channels absent, queues and traces empty (spec/10_state.md section 4). The registers' zero and the absence of a
block are choices (log entries 3 and 5). -/
def Obligations.ResetStateValues : Prop :=
  State.reset.regs = ⟨0, 0, 0, 0, 0, 0⟩ ∧ State.reset.created = false ∧
    State.reset.dataChannel = .absent ∧ State.reset.clockChannel = .absent ∧
    State.reset.rxq = [] ∧ State.reset.ckq = [] ∧ State.reset.txt = [] ∧ State.reset.irqt = []

/-- The reset state meets the invariants. -/
def Obligations.ResetStateMeetsTheInvariants : Prop := State.reset.Inv ∧ State.reset.budgetOk

/-- Every step keeps the invariant: channels paired and closed streams empty (spec/10_state.md rule R18,
spec/40_link_lifecycle.md rule R82), no link without a block, the register file in canonical form. -/
def Obligations.StepKeepsTheInvariant : Prop :=
  ∀ s t : State, s.Inv → step s = .next t → t.Inv

/-- spec/10_state.md rule R27: ONLOAD establishes `NEC <= CSR`, every step but a CREATE (which makes a new block that has
had no ONLOAD) keeps it, and where it holds a PROCESS never returns more than CSR. -/
def Obligations.BudgetBoundsTheCountdown : Prop :=
  (∀ s t : State, exec .onload s = .next t → t.budgetOk) ∧
    (∀ s t : State, s.budgetOk → ¬ s.createsNext → step s = .next t → t.budgetOk) ∧
    (∀ (s t : State) (e : Cycles), s.budgetOk → exec (.process e) s = .next t →
      ∃ c : Cycles, t.result = .cycles c ∧ c.toInt ≤ t.csr.toInt)

/-- A step runs the operation that the head of the agenda selects: a named operation, or a 16-bit store decoded by its
offset, on the state without that event; with nothing to serve it changes nothing (log entry 1). -/
def Obligations.StepRunsTheDecodedOperation : Prop :=
  (∀ (s : State) (op : HostCall) (rest : List Event), s.agenda = .call op :: rest →
      step s = exec (decode (.call op)) { s with agenda := rest }) ∧
    (∀ (s : State) (offset : Offset) (value : BitVec 32) (rest : List Event),
      s.agenda = .store .half offset value :: rest →
      step s = exec (decode (.write offset (value.setWidth 16))) { s with agenda := rest }) ∧
    (∀ s : State, s.agenda = [] → step s = .next s)

/-- spec/42_sequencer.md rules R105, R106: a PROCESS whose processing step is due and whose read gives a byte runs the
command that byte decodes to, on the state without the byte; it then sets only the counters and the returned value. -/
def Obligations.ProcessRunsTheDecodedCommand : Prop :=
  ∀ (s t : State) (e : Cycles) (b : Byte), exec (.process e) s = .next t → s.nec.toInt ≤ e.toInt →
    s.commandByte = some b →
    ∃ u : State,
      exec (decode (.command b))
        { s with
          rxq := s.rxq.tail
          readFails := s.readFails.tail
          ckq := if s.csr.toInt ≤ e.toInt then s.ckq.tail else s.ckq } = .next u ∧
      t = { u with nec := t.nec, csr := t.csr, result := t.result }

/-! ## Lifecycle operations -/

/-- spec/40_link_lifecycle.md, CREATE. The counters are free values (the spec's decision D6, log entry 4); that CREATE is
admitted in every state and takes the old block's place is the model's choice (log entry 13). -/
def Obligations.CreateMakesANewBlock : Prop :=
  ∀ s : State, exec .create s = .next
    { s with
      created := true
      dataChannel := .absent
      clockChannel := .absent
      rxq := []
      ckq := []
      txt := []
      irqt := []
      nec := Config.freeCycles s.draws
      csr := Config.freeCycles (s.draws + 1)
      draws := s.draws + 2
      result := .nothing }

/-- spec/40_link_lifecycle.md, CONNECT: success connects both channels; either failure leaves both absent and returns
false, and what was connected before is lost. The empty queues are the spec's own reading (decision D24, log entry
24). -/
def Obligations.ConnectSetsBothChannelsOrNeither : Prop :=
  ∀ s : State, s.created = true →
    exec (.connect .ok) s = .next
      { s with dataChannel := .connected, clockChannel := .connected, rxq := [], ckq := [], result := .bool true } ∧
    ∀ o : ConnectOutcome, o ≠ .ok →
      exec (.connect o) s = .next
        (if s.dataChannel = .connected ∨ s.clockChannel = .connected then
          { s with dataChannel := .absent, clockChannel := .absent, rxq := [], ckq := [], result := .bool false }
         else { s with dataChannel := .absent, clockChannel := .absent, result := .bool false })

/-- spec/40_link_lifecycle.md, TEARDOWN: both channels absent, nothing else; a second TEARDOWN changes nothing. The
empty queues are the spec's own reading (decision D24, log entry 24). -/
def Obligations.TeardownClosesBothAndIsIdempotent : Prop :=
  ∀ s : State, s.created = true →
    ∃ t : State, exec .teardown s = .next t ∧ exec .teardown t = .next t ∧
      t = { s with dataChannel := .absent, clockChannel := .absent, rxq := [], ckq := [], result := .nothing }

/-- spec/40_link_lifecycle.md, DESTROY: both channels closed, the register file keeps its values. The empty queues are
the spec's own reading (decision D24, log entry 24), and the field `created` is the model's (log entry 13). -/
def Obligations.DestroyClosesBothChannels : Prop :=
  ∀ s : State, s.created = true → exec .destroy s = .next
    { s with
      created := false
      dataChannel := .absent
      clockChannel := .absent
      rxq := []
      ckq := []
      result := .nothing }

/-- spec/40_link_lifecycle.md, ONLOAD: both counters to 0, nothing else touched. The returned true is the spec's own
decision (D23, log entry 7). -/
def Obligations.OnloadZeroesBothCounters : Prop :=
  ∀ s : State, s.created = true → exec .onload s = .next { s with nec := 0, csr := 0, result := .bool true }

/-- spec/70_reset_and_hazards.md rule R164: no lifecycle operation changes the register file. -/
def Obligations.LifecycleLeavesTheRegisterFile : Prop :=
  ∀ (i : Instr) (s t : State), i.isLifecycle = true → exec i s = .next t →
    t.regs = s.regs ∧ ∀ a : Offset, t.fileByte a = s.fileByte a

/-- An operation is refused exactly as spec/40_link_lifecycle.md rule R86 and spec/60_exceptions.md rules R144, R145 admit
it; that no operation but CREATE runs without a block is the model's reading (log entry 13). -/
def Obligations.RefusalsHaveExactlyTheirCauses : Prop :=
  ∀ (i : Instr) (s : State),
    (exec i s = .refused .noBlock ↔ s.created = false ∧ i.isCommand = false ∧ i ≠ .create) ∧
    (exec i s = .refused .notConnected ↔
      s.created = true ∧ s.linked = false ∧ ∃ e : Cycles, i = .process e) ∧
    (exec i s = .refused .unsupportedAccessSize ↔
      s.created = true ∧ ∃ (offset : Offset) (value : Half), i = .wrOther offset value ∧ cutsLink offset = true)

/-! ## Register writes -/

/-- spec/41_register_write.md, WR_JOYCNT, bit by bit: bit 6 as written, bits 2:0 cleared by a written 1; nothing else
changes. That bits 5:3 and 15:7 keep the prior value is the spec's decision D13 on its conflict C1 (log entry 15). -/
def Obligations.WrJoycntStoresBitByBit : Prop :=
  ∀ (s : State) (value : Half), s.created = true →
    ∃ stored : Half,
      exec (.wrJoycnt value) s =
        .next { s with regs := { s.regs with joycnt := stored }, result := .half stored } ∧
      ∀ k : Nat, k < 16 →
        stored.getLsbD k =
          if k = 6 then value.getLsbD k
          else if k ≤ 2 then s.regs.joycnt.getLsbD k && !value.getLsbD k
          else s.regs.joycnt.getLsbD k

/-- spec/41_register_write.md rule R91, bit by bit: bits 5:4 as written, every other bit kept; nothing else changes. -/
def Obligations.WrJoystatStoresBitByBit : Prop :=
  ∀ (s : State) (value : Half), s.created = true →
    ∃ stored : Half,
      exec (.wrJoystat value) s =
        .next { s with regs := { s.regs with joystat := stored }, result := .half stored } ∧
      ∀ k : Nat, k < 16 →
        stored.getLsbD k =
          if k = 4 ∨ k = 5 then value.getLsbD k else s.regs.joystat.getLsbD k

/-- spec/41_register_write.md rules R92, R93: TXP is set, the value is stored unchanged, the other half is kept. -/
def Obligations.WrJoyTransSetsTransmitPending : Prop :=
  ∀ (s : State) (value : Half), s.created = true →
    exec (.wrJoyTransLo value) s = .next
      { s with
        regs := { s.regs with joystat := s.regs.joystat ||| 0x0008, joyTransLo := value }
        result := .half value } ∧
    exec (.wrJoyTransHi value) s = .next
      { s with
        regs := { s.regs with joystat := s.regs.joystat ||| 0x0008, joyTransHi := value }
        result := .half value }

/-- spec/41_register_write.md, WR_OTHER, at every offset that does not cut a link register (an offset that does is
UnsupportedStoresAreRefused's): the value is stored as written, every other byte of the register file and everything else
is as before. Of the model: the low byte lies at the offset (spec/20_memory.md section 2, decision D27, log entry 21), the
other registers of the file are plain storage (log entry 6), and the second byte's offset wraps at 2^16 (log entry 20);
that the value passes unchanged is decision D14 (log entry 20). The register file is in its canonical form (`memOk`, kept
by every step). -/
def Obligations.WrOtherStoresTheValueUnchanged : Prop :=
  ∀ (s : State) (offset : Offset) (value : Half), s.created = true → s.memOk →
    Instr.wf (.wrOther offset value) = true → cutsLink offset = false →
    ∃ t : State, exec (.wrOther offset value) s = .next t ∧
      t = { s with regs := t.regs, mem := t.mem, result := .half value } ∧
      t.fileByte offset = lo8 value ∧ t.fileByte (offset + 1) = hi8 value ∧
      ∀ a : Offset, a ≠ offset → a ≠ offset + 1 → t.fileByte a = s.fileByte a

/-- spec/41_register_write.md, WR_OTHER, on the receive registers at the default offsets 0x150 and 0x152
(spec/20_memory.md section 1, log entry 11): stored as written, no flag touched. That the CPU side can write them at all
is decision D32 (log entry 20). -/
def Obligations.ReceiveRegistersAreWrittenAsGiven : Prop :=
  ∀ (s : State) (value : Half), s.created = true →
    exec (decode (.write 0x0150 value)) s =
      .next { s with regs := { s.regs with joyRecvLo := value }, result := .half value } ∧
    exec (decode (.write 0x0152 value)) s =
      .next { s with regs := { s.regs with joyRecvHi := value }, result := .half value }

/-- spec/60_exceptions.md section 2, UnsupportedAccessSize: a CPU-side store to one of the six registers that is no
aligned 16-bit store and no split 32-bit store is refused. The refusal is the spec's decision D20 (log entry 19); the
offsets 0x154 and 0x150 of the stores that are split are defaults (log entry 11). -/
def Obligations.UnsupportedStoresAreRefused : Prop :=
  (∀ (s : State) (offset : Offset) (value : Half), s.created = true → cutsLink offset = true →
      serve (.store .half offset (value.setWidth 32)) s = .refused .unsupportedAccessSize) ∧
    (∀ (s : State) (offset : Offset) (value : BitVec 32), touchesLink 1 offset = true →
      serve (.store .byte offset value) s = .refused .unsupportedAccessSize) ∧
    (∀ (s : State) (gap : Nat) (offset : Offset) (value : BitVec 32), touchesLink 4 offset = true →
      offset ≠ 0x0154 → offset ≠ 0x0150 →
      serve (.store (.word gap) offset value) s = .refused .unsupportedAccessSize)

/-- spec/20_memory.md section 3: a 32-bit store to JOY_TRANS or JOY_RECV is two 16-bit writes, the low half first (which
the spec takes from general knowledge, decision D20); TXP is set at the first half of JOY_TRANS. The high half is an
operation of its own, which follows after `gap` other events: how the split is written as events is the model's choice (log
entry 19). The offsets are defaults (log entry 11). -/
def Obligations.WordStoreIsTwoHalfWrites : Prop :=
  ∀ (s : State) (gap : Nat) (value : BitVec 32) (rest : List Event), s.created = true →
    (s.agenda = .store (.word gap) 0x0154 value :: rest →
      step s = .next
        { s with
          regs := { s.regs with joystat := s.regs.joystat ||| 0x0008, joyTransLo := value.setWidth 16 }
          result := .half (value.setWidth 16)
          agenda :=
            rest.take gap ++ .store .half 0x0156 (((value >>> 16).setWidth 16).setWidth 32) :: rest.drop gap }) ∧
    (s.agenda = .store .half 0x0156 (((value >>> 16).setWidth 16).setWidth 32) :: rest →
      step s = .next
        { s with
          regs :=
            { s.regs with joystat := s.regs.joystat ||| 0x0008, joyTransHi := (value >>> 16).setWidth 16 }
          result := .half ((value >>> 16).setWidth 16)
          agenda := rest }) ∧
    (s.agenda = .store (.word gap) 0x0150 value :: rest →
      step s = .next
        { s with
          regs := { s.regs with joyRecvLo := value.setWidth 16 }
          result := .half (value.setWidth 16)
          agenda :=
            rest.take gap ++ .store .half 0x0152 (((value >>> 16).setWidth 16).setWidth 32) :: rest.drop gap }) ∧
    (s.agenda = .store .half 0x0152 (((value >>> 16).setWidth 16).setWidth 32) :: rest →
      step s = .next
        { s with
          regs := { s.regs with joyRecvHi := (value >>> 16).setWidth 16 }
          result := .half ((value >>> 16).setWidth 16)
          agenda := rest })

/-- spec/20_memory.md rule R47, spec/70_reset_and_hazards.md rule R172: a TRANS dispatched by a PROCESS that falls between
the two halves of a 32-bit store to JOY_TRANS sends one new and one old half and clears TXP, and the second half sets TXP
again. That the new half is the low one is the spec's decision D20, from general knowledge (rule R172 leaves it to the write
order); how the split is written as events, here with a gap of 1, is the model's choice (log entry 19 for both); the offset
0x0154 is a default (log entry 11). -/
def Obligations.TransBetweenTheHalvesSendsATornWord : Prop :=
  ∀ (s t u : State) (value : BitVec 32) (e : Cycles) (rest : List Event), s.created = true →
    s.agenda = .store (.word 1) 0x0154 value :: .call (.process e) :: rest →
    step s = .next t → step t = .next u → s.nec.toInt ≤ e.toInt → s.commandByte = some 0x14 →
    (∃ status : Byte, u.txt = s.txt ++
      [value.setWidth 8, (value >>> 8).setWidth 8, lo8 s.regs.joyTransHi, hi8 s.regs.joyTransHi, status]) ∧
    u.regs.joystat.getLsbD 3 = false ∧
    ∃ v : State, step u = .next v ∧ v.regs.joystat.getLsbD 3 = true ∧
      v.regs.joyTransLo = value.setWidth 16 ∧ v.regs.joyTransHi = (value >>> 16).setWidth 16 ∧ v.agenda = rest

/-- spec/20_memory.md section 3, reads: the stored value is returned and nothing changes. That a read clears no flag is
the spec's decision D15 (log entry 17). -/
def Obligations.ReadReturnsTheRegisterAndChangesNothing : Prop :=
  ∀ (s : State) (r : LinkReg),
    serve (.load (addrOf r)) s = .next { s with result := .half (s.reg r) }

/-- spec/30_encoding.md rule R70: ACK clears the named event flags and keeps IEN. That bits 5:3 and 15:7 keep their value
too is the spec's decision D13 on its conflict C1 (log entry 15). -/
def Obligations.AckClearsTheNamedFlagsAndKeepsIen : Prop :=
  ∀ (s : State) (flags : Half) (rest : List Event), s.created = true → s.agenda = ack flags s :: rest →
    ∃ t : State, step s = .next t ∧
      t.regs = { s.regs with joycnt := s.regs.joycnt &&& ~~~(flags &&& 0x0007) }

/-! ## Wire commands -/

/-- spec/43_commands.md, RESET. The cost 2550 is the default of COST (decision D28 on conflict C3, log entry 12). -/
def Obligations.ResetSetsRstAndAnswersLikePoll : Prop :=
  ∀ s : State, exec .reset s = .next
    { s with
      regs := { s.regs with joycnt := s.regs.joycnt ||| 0x0001 }
      irqt := if s.regs.joycnt.getLsbD 6 then s.irqt ++ [.sio] else s.irqt
      txt := s.txt ++ [0x00, 0x04, lo8 s.regs.joystat]
      result := .cycles 2550 }

/-- spec/43_commands.md, POLL. The cost 2550 is the default of COST (decision D28 on conflict C3, log entry 12). -/
def Obligations.PollOnlyAnswers : Prop :=
  ∀ s : State, exec .poll s = .next
    { s with txt := s.txt ++ [0x00, 0x04, lo8 s.regs.joystat], result := .cycles 2550 }

/-- spec/43_commands.md rule R124, corner case (1): a complete payload. The status byte after the flags is decision D11 (log
entry 16); the cost is the default of COST (decision D28 on conflict C3, log entry 12). -/
def Obligations.RecvOfACompletePayload : Prop :=
  ∀ (s : State) (p0 p1 p2 p3 : Byte) (rest : List Byte), s.readFailsNow = false →
    s.rxq = p0 :: p1 :: p2 :: p3 :: rest →
    exec .recv s = .next
      { s with
        regs :=
          { s.regs with
            joycnt := s.regs.joycnt ||| 0x0002
            joystat := s.regs.joystat ||| 0x0002
            joyRecvLo := le16 p0 p1
            joyRecvHi := le16 p2 p3 }
        rxq := rest
        readFails := s.readFails.tail
        txt := s.txt ++ [lo8 (s.regs.joystat ||| 0x0002)]
        irqt := if s.regs.joycnt.getLsbD 6 then s.irqt ++ [.sio] else s.irqt
        result := .cycles 3750 }

/-- spec/43_commands.md, RECV whole: flags, response, interrupt and cost are as for a complete payload. That whatever
arrived fills its wire positions and each missing byte is a draw of its own is decision D8 (log entry 9); the status byte
after the flags is decision D11 (log entry 16); the cost is the default of COST (log entry 12). -/
def Obligations.RecvFillsFromWhatArrived : Prop :=
  ∀ s : State, ∃ (p : List Byte) (q : Nat → Byte),
    p = (if s.readFailsNow then [] else s.rxq.take 4) ∧
    (∀ k : Nat, k < 4 → q k = if h : k < p.length then p[k] else Config.freeByte (s.draws + (k - p.length))) ∧
    exec .recv s = .next
      { s with
        regs :=
          { s.regs with
            joycnt := s.regs.joycnt ||| 0x0002
            joystat := s.regs.joystat ||| 0x0002
            joyRecvLo := le16 (q 0) (q 1)
            joyRecvHi := le16 (q 2) (q 3) }
        rxq := s.rxq.drop p.length
        readFails := s.readFails.tail
        draws := s.draws + (4 - p.length)
        txt := s.txt ++ [lo8 (s.regs.joystat ||| 0x0002)]
        irqt := if s.regs.joycnt.getLsbD 6 then s.irqt ++ [.sio] else s.irqt
        result := .cycles 3750 }

/-- spec/43_commands.md, TRANS. The status byte taken after TXP is cleared is decision D11 (log entry 16); the cost 3750
is the default of COST (log entry 12). -/
def Obligations.TransSendsTheWordAndClearsPending : Prop :=
  ∀ s : State, exec .trans s = .next
    { s with
      regs :=
        { s.regs with
          joycnt := s.regs.joycnt ||| 0x0004
          joystat := s.regs.joystat &&& ~~~0x0008 }
      txt := s.txt ++
        [lo8 s.regs.joyTransLo, hi8 s.regs.joyTransLo, lo8 s.regs.joyTransHi, hi8 s.regs.joyTransHi,
         lo8 (s.regs.joystat &&& ~~~0x0008)]
      irqt := if s.regs.joycnt.getLsbD 6 then s.irqt ++ [.sio] else s.irqt
      result := .cycles 3750 }

/-- spec/43_commands.md rule R126: no register effect, no response, cost 675. -/
def Obligations.UnrecognizedOnlyCosts : Prop :=
  ∀ (s : State) (b : Byte), exec (.unrecognized b) s = .next { s with result := .cycles 675 }

/-- spec/43_commands.md rule R128: RESET and POLL give the same response in the same state. -/
def Obligations.ResetAndPollAnswerAlike : Prop :=
  ∀ s : State, ∃ t u : State, exec .reset s = .next t ∧ exec .poll s = .next u ∧
    t.txt = u.txt ∧ t.regs.joystat = u.regs.joystat

/-- spec/20_memory.md rule R42, spec/30_encoding.md rules R63, R65, spec/10_state.md rules R16, R17: the payload of
`RECV w` arrives as the word w, `GRANT n` is read as n, and TRANS sends its word as `RECV` takes one. -/
def Obligations.WordsCrossTheLinkInWireOrder : Prop :=
  (∀ (s t : State) (w : BitVec 32) (rest : List Byte), s.readFailsNow = false →
      0x15 :: s.rxq = recvBytes w ++ rest → exec .recv s = .next t →
      wordOf t.regs.joyRecvHi t.regs.joyRecvLo = w ∧ t.rxq = rest) ∧
    (∀ n : BitVec 32, ∃ b0 b1 b2 b3 : Byte, grantRead n = .word b0 b1 b2 b3 ∧ be32s b0 b1 b2 b3 = n) ∧
    (∀ s t : State, exec .trans s = .next t →
      ∃ status : Byte,
        t.txt = s.txt ++ (recvBytes (wordOf s.regs.joyTransHi s.regs.joyTransLo)).tail ++ [status])

/-! ## The sequencer -/

/-- spec/42_sequencer.md rules R100, R110, spec/60_exceptions.md rule R144: on a linked block a PROCESS completes exactly
where every exact counter result it computes is in range (both subtractions, and the grant where one is taken), with CSR
that result and NEC returned, and is refused for overflow otherwise; adding a cost never overflows. The range of 32 signed
bits and the refusal are the spec's decision D2 (log entry 14). -/
def Obligations.ProcessCompletesExactlyInRange : Prop :=
  ∀ (s : State) (e : Cycles), s.created = true → s.linked = true →
    ((inRange (s.nec.toInt - e.toInt) ∧ inRange (s.csr.toInt - e.toInt) ∧
        (s.nec.toInt ≤ e.toInt → s.csr.toInt ≤ e.toInt →
          inRange (s.csr.toInt - e.toInt + s.nextGrant))) →
      ∃ t : State, exec (.process e) s = .next t ∧ t.result = .cycles t.nec ∧
        t.csr.toInt = s.csr.toInt - e.toInt +
          (if s.nec.toInt ≤ e.toInt ∧ s.csr.toInt ≤ e.toInt then s.nextGrant else 0)) ∧
    (¬ (inRange (s.nec.toInt - e.toInt) ∧ inRange (s.csr.toInt - e.toInt) ∧
        (s.nec.toInt ≤ e.toInt → s.csr.toInt ≤ e.toInt →
          inRange (s.csr.toInt - e.toInt + s.nextGrant))) →
      exec (.process e) s = .refused .counterOverflow)

/-- spec/42_sequencer.md rules R101, R102: where the countdown is still positive a PROCESS subtracts the elapsed cycles
from both counters, returns NEC and does nothing else. -/
def Obligations.ProcessNotDueOnlyCountsDown : Prop :=
  ∀ (s : State) (e : Cycles), s.created = true → s.linked = true →
    0 < s.nec.toInt - e.toInt → inRange (s.nec.toInt - e.toInt) → inRange (s.csr.toInt - e.toInt) →
    ∃ n c : Cycles, n.toInt = s.nec.toInt - e.toInt ∧ c.toInt = s.csr.toInt - e.toInt ∧
      exec (.process e) s = .next { s with nec := n, csr := c, result := .cycles n }

/-- spec/42_sequencer.md rules R103 to R109: the counters of a due PROCESS. CSR loses the elapsed cycles and, where it is
then not positive, gains the next grant; NEC loses them and gains the command's cost, or 600 with no command byte, and is
clamped to CSR; NEC is returned. The costs 2550, 3750 and 675 are the default of COST (decision D28 on conflict C3, log entry
12). -/
def Obligations.ProcessDueCounters : Prop :=
  ∀ (s t : State) (e : Cycles), exec (.process e) s = .next t → s.nec.toInt ≤ e.toInt →
    t.csr.toInt =
      s.csr.toInt - e.toInt + (if s.csr.toInt ≤ e.toInt then s.nextGrant else 0) ∧
    t.nec.toInt =
      min (s.nec.toInt - e.toInt +
        (match s.commandByte with
          | none => 600
          | some b =>
            if b = 0xFF ∨ b = 0x00 then 2550 else if b = 0x15 ∨ b = 0x14 then 3750 else 675))
        t.csr.toInt ∧
    t.result = .cycles t.nec

/-- spec/42_sequencer.md rule R107: a due PROCESS whose read gives no byte changes no register, sends nothing and raises
nothing, and takes nothing from RXQ. -/
def Obligations.ProcessWithoutAByteIsIdle : Prop :=
  ∀ (s t : State) (e : Cycles), exec (.process e) s = .next t → s.nec.toInt ≤ e.toInt →
    s.commandByte = none →
    t = { s with
          nec := t.nec
          csr := t.csr
          ckq := if s.csr.toInt ≤ e.toInt then s.ckq.tail else s.ckq
          readFails := s.readFails.tail
          result := t.result }

/-- spec/42_sequencer.md rule R111 (a): a PROCESS takes at most one command from RXQ, which is one byte, or for a RECV its
byte and at most four of payload, and nothing where it is not due or no byte is read; and at most one outcome from CKQ, only
where it is due; both from the front. -/
def Obligations.ProcessTakesAtMostOneCommandAndOneGrant : Prop :=
  ∀ (s t : State) (e : Cycles), exec (.process e) s = .next t →
    (∃ n : Nat, n ≤ 5 ∧ (s.commandByte ≠ some 0x15 → n ≤ 1) ∧
        (e.toInt < s.nec.toInt ∨ s.commandByte = none → n = 0) ∧ t.rxq = s.rxq.drop n) ∧
      (∃ m : Nat, m ≤ 1 ∧ (e.toInt < s.nec.toInt → m = 0) ∧ t.ckq = s.ckq.drop m)

/-- spec/70_reset_and_hazards.md rule R162: right after an ONLOAD, whatever the elapsed cycles e >= 0, step 1 leaves NEC
and CSR not positive, so the first PROCESS polls the clock-in port and takes a waiting command byte. -/
def Obligations.FirstProcessAfterOnloadPollsAndReads : Prop :=
  ∀ (s t u : State) (e : Cycles), exec .onload s = .next t → 0 ≤ e.toInt → exec (.process e) t = .next u →
    t.nec.toInt - e.toInt ≤ 0 ∧ t.csr.toInt - e.toInt ≤ 0 ∧ u.ckq = s.ckq.tail ∧
    ∀ b : Byte, s.commandByte = some b → u.rxq.length < s.rxq.length

/-! ## The interrupt output and the traces -/

/-- spec/60_exceptions.md rules R140, R141, R142: exactly RESET, RECV and TRANS raise, one event each, and only where
IEN is 1; inside a PROCESS that is the dispatched command. (CREATE starts a new trace.) -/
def Obligations.OnlyThreeCommandsRaiseAndOnlyWithIen : Prop :=
  (∀ (i : Instr) (s t : State), i ≠ .create → (∀ e : Cycles, i ≠ .process e) → exec i s = .next t →
      t.irqt = s.irqt ++
        (if (i = .reset ∨ i = .recv ∨ i = .trans) ∧ s.regs.joycnt.getLsbD 6 = true then [.sio] else [])) ∧
    (∀ (s t : State) (e : Cycles), exec (.process e) s = .next t →
      t.irqt = s.irqt ++
        (if s.nec.toInt ≤ e.toInt ∧
            (s.commandByte = some 0xFF ∨ s.commandByte = some 0x15 ∨ s.commandByte = some 0x14) ∧
            s.regs.joycnt.getLsbD 6 = true then [.sio] else []))

/-- spec/10_state.md rules R24, R25: both traces are append-only while the block lives. -/
def Obligations.TracesOnlyGrow : Prop :=
  ∀ (i : Instr) (s t : State), i ≠ .create → exec i s = .next t →
    (∃ bytes : List Byte, t.txt = s.txt ++ bytes) ∧ (∃ events : List IrqEvent, t.irqt = s.irqt ++ events)

/-- spec/10_state.md rule R24, spec/43_commands.md rule R127: nothing the block does depends on what it has sent or
raised before. With any other traces an operation does the same, appends the same bytes and events to them, and is
refused in the same cases; CREATE starts both traces anew, so it does not see the old ones at all. -/
def Obligations.TracesAreNeverReadBack : Prop :=
  (∀ (i : Instr) (s t : State) (sent : List Byte) (raised : List IrqEvent), i ≠ .create → exec i s = .next t →
      ∃ (bytes : List Byte) (events : List IrqEvent),
        t.txt = s.txt ++ bytes ∧ t.irqt = s.irqt ++ events ∧
        exec i { s with txt := sent, irqt := raised } =
          .next { t with txt := sent ++ bytes, irqt := raised ++ events }) ∧
    (∀ (s : State) (sent : List Byte) (raised : List IrqEvent),
      exec .create { s with txt := sent, irqt := raised } = exec .create s) ∧
    (∀ (i : Instr) (s : State) (r : Refusal) (sent : List Byte) (raised : List IrqEvent),
      exec i s = .refused r → exec i { s with txt := sent, irqt := raised } = .refused r)

/-! ## Whole-machine rules -/

/-- spec/10_state.md rules R14, R15: the bits the source does not name keep their value through every operation. That JOYCNT
bits 5:3 and 15:7 survive a WR_JOYCNT is the spec's decision D13 on its conflict C1 (log entry 15). -/
def Obligations.UndocumentedBitsNeverChange : Prop :=
  ∀ (i : Instr) (s t : State), i.wf = true → exec i s = .next t →
    t.regs.joycnt &&& 0xFFB8 = s.regs.joycnt &&& 0xFFB8 ∧
    t.regs.joystat &&& 0xFFC5 = s.regs.joystat &&& 0xFFC5

/-- spec/10_state.md section 2: no operation of the block clears RXA, and no step of the machine does but the console's
reset of the register file. That nothing else clears it is the spec's decision D15 (log entry 17). -/
def Obligations.RxaStaysUntilTheConsoleResets : Prop :=
  (∀ (i : Instr) (s t : State), i.wf = true → exec i s = .next t → s.regs.joystat.getLsbD 1 = true →
      t.regs.joystat.getLsbD 1 = true) ∧
    (∀ s t : State, s.agenda.head? ≠ some .consoleReset → step s = .next t →
      s.regs.joystat.getLsbD 1 = true → t.regs.joystat.getLsbD 1 = true)

/-- spec/10_state.md rule R20: of all flags a command tests IEN alone. Whatever JOYCNT (of the same IEN) and JOYSTAT hold,
it sets the same bits of JOYCNT, sets and clears the same bits of JOYSTAT, sends the same bytes before the status byte, if
it sends one, and does everything else the same. That the status byte is the low byte of JOYSTAT after the command's own
flag updates is the spec's decisions D11 and D12 (log entry 16). -/
def Obligations.CommandsTestIenAlone : Prop :=
  ∀ (i : Instr) (s t : State), i.isCommand = true → exec i s = .next t →
    ∃ (setCnt setStat clearStat : Half) (front : List Byte) (answers : Bool),
      ∀ cnt stat : Half, cnt.getLsbD 6 = s.regs.joycnt.getLsbD 6 →
        exec i { s with regs := { s.regs with joycnt := cnt, joystat := stat } } =
          .next
            { t with
              regs :=
                { t.regs with
                  joycnt := cnt ||| setCnt
                  joystat := (stat ||| setStat) &&& ~~~clearStat }
              txt := s.txt ++ front ++
                (if answers then [lo8 ((stat ||| setStat) &&& ~~~clearStat)] else []) }

/-- spec/60_exceptions.md rule R149, spec/10_state.md rules R14, R15: which side may set and clear each named bit. That a
transmit write sets TXP and TRANS clears it is the spec's resolution of its conflict C2 (log entry 16). -/
def Obligations.EachFlagHasItsSide : Prop :=
  ∀ (i : Instr) (s t : State), i.wf = true → exec i s = .next t →
    (∀ k : Nat, k ≤ 2 → s.regs.joycnt.getLsbD k = false → t.regs.joycnt.getLsbD k = true →
      (k = 0 ∧ i = .reset) ∨ (k = 1 ∧ i = .recv) ∨ (k = 2 ∧ i = .trans) ∨ ∃ e : Cycles, i = .process e) ∧
    (∀ k : Nat, k ≤ 2 → s.regs.joycnt.getLsbD k = true → t.regs.joycnt.getLsbD k = false →
      ∃ value : Half, i = .wrJoycnt value ∧ value.getLsbD k = true) ∧
    (t.regs.joycnt.getLsbD 6 ≠ s.regs.joycnt.getLsbD 6 → ∃ value : Half, i = .wrJoycnt value) ∧
    (∀ k : Nat, k = 4 ∨ k = 5 → t.regs.joystat.getLsbD k ≠ s.regs.joystat.getLsbD k →
      ∃ value : Half, i = .wrJoystat value) ∧
    (s.regs.joystat.getLsbD 1 = false → t.regs.joystat.getLsbD 1 = true →
      i = .recv ∨ ∃ e : Cycles, i = .process e) ∧
    (s.regs.joystat.getLsbD 3 = false → t.regs.joystat.getLsbD 3 = true →
      ∃ value : Half, i = .wrJoyTransLo value ∨ i = .wrJoyTransHi value) ∧
    (s.regs.joystat.getLsbD 3 = true → t.regs.joystat.getLsbD 3 = false →
      i = .trans ∨ ∃ e : Cycles, i = .process e)

/-- spec/10_state.md rule R19, spec/70_reset_and_hazards.md rule R182: an operation leaves every link register it does
not write. -/
def Obligations.UnwrittenRegistersAreKept : Prop :=
  ∀ (i : Instr) (s t : State) (r : LinkReg), i.wf = true → exec i s = .next t → r ∉ writtenRegs i →
    t.reg r = s.reg r

/-- spec/20_memory.md rules R40, R53: an operation leaves every byte of the register file it does not store to. -/
def Obligations.UnstoredFileBytesAreKept : Prop :=
  ∀ (i : Instr) (s t : State) (a : Offset), i.wf = true → exec i s = .next t → a ∉ storedBytes i →
    t.fileByte a = s.fileByte a

/-- spec/70_reset_and_hazards.md rule R182: what each kind of operation leaves of the state outside the link registers. -/
def Obligations.EachKindOfOperationKeepsTheRest : Prop :=
  ∀ (i : Instr) (s t : State), exec i s = .next t →
    (i.isWrite = true → t = { s with regs := t.regs, mem := t.mem, result := t.result }) ∧
    (i.isCommand = true →
      t = { s with
            regs := t.regs
            rxq := t.rxq
            readFails := t.readFails
            txt := t.txt
            irqt := t.irqt
            draws := t.draws
            result := t.result }) ∧
    (i.isLifecycle = true → t.regs = s.regs ∧ t.mem = s.mem ∧ t.agenda = s.agenda ∧ t.readFails = s.readFails) ∧
    ((∃ e : Cycles, i = .process e) →
      t.created = s.created ∧ t.dataChannel = s.dataChannel ∧ t.clockChannel = s.clockChannel ∧
        t.mem = s.mem ∧ t.agenda = s.agenda ∧ t.regs.joyTransLo = s.regs.joyTransLo ∧
        t.regs.joyTransHi = s.regs.joyTransHi)

/-- spec/40_link_lifecycle.md rule R86: a register write reads only the register file, so its effect is the same in every
channel state and whatever waits on the ports. -/
def Obligations.RegisterWritesIgnoreTheLink : Prop :=
  ∀ (i : Instr) (s t : State) (d c : Channel) (rx : List Byte) (ck : List ClockRead) (n r : Cycles),
    i.isWrite = true → exec i s = .next t →
    exec i { s with dataChannel := d, clockChannel := c, rxq := rx, ckq := ck, nec := n, csr := r } =
      .next { t with dataChannel := d, clockChannel := c, rxq := rx, ckq := ck, nec := n, csr := r }

/-! ## The agents outside -/

/-- spec/10_state.md rules R22, R23: what the peer sends joins the end of its queue and changes nothing else; that nothing
arrives on an absent channel is the model's reading (log entry 22). -/
def Obligations.PeerItemsJoinTheEndOfTheirQueue : Prop :=
  ∀ (s : State) (bs : List Byte) (r : ClockRead),
    (s.dataChannel = .connected → serve (.peerBytes bs) s = .next { s with rxq := s.rxq ++ bs }) ∧
    (s.clockChannel = .connected → serve (.peerClock r) s = .next { s with ckq := s.ckq ++ [r] }) ∧
    (s.dataChannel = .absent → serve (.peerBytes bs) s = .next s) ∧
    (s.clockChannel = .absent → serve (.peerClock r) s = .next s)

/-- spec/70_reset_and_hazards.md rule R163 with the default of REGFILE_RESET (log entries 5 and 23): the console's reset
sets the six registers to 0 and leaves the block's own state. -/
def Obligations.ConsoleResetClearsTheRegisterFile : Prop :=
  ∀ s : State, serve .consoleReset s = .next { s with regs := ⟨0, 0, 0, 0, 0, 0⟩, mem := [] }
end

