-- ==== Sys2Proof/Laws/State.lean ====
section
/-! SUPPORT. One lemma per field per named update of the state: what the update makes of the field. -/

namespace Sys2Proof.Machine

variable (s : State)

/-! ## `State.setRegs` -/

@[simp] theorem State.setRegs_created (r : LinkRegs) : (s.setRegs r).created = s.created := rfl
@[simp] theorem State.setRegs_dataChannel (r : LinkRegs) : (s.setRegs r).dataChannel = s.dataChannel := rfl
@[simp] theorem State.setRegs_clockChannel (r : LinkRegs) : (s.setRegs r).clockChannel = s.clockChannel := rfl
@[simp] theorem State.setRegs_nec (r : LinkRegs) : (s.setRegs r).nec = s.nec := rfl
@[simp] theorem State.setRegs_csr (r : LinkRegs) : (s.setRegs r).csr = s.csr := rfl
@[simp] theorem State.setRegs_regs (r : LinkRegs) : (s.setRegs r).regs = r := rfl
@[simp] theorem State.setRegs_mem (r : LinkRegs) : (s.setRegs r).mem = s.mem := rfl
@[simp] theorem State.setRegs_rxq (r : LinkRegs) : (s.setRegs r).rxq = s.rxq := rfl
@[simp] theorem State.setRegs_ckq (r : LinkRegs) : (s.setRegs r).ckq = s.ckq := rfl
@[simp] theorem State.setRegs_txt (r : LinkRegs) : (s.setRegs r).txt = s.txt := rfl
@[simp] theorem State.setRegs_irqt (r : LinkRegs) : (s.setRegs r).irqt = s.irqt := rfl
@[simp] theorem State.setRegs_result (r : LinkRegs) : (s.setRegs r).result = s.result := rfl
@[simp] theorem State.setRegs_agenda (r : LinkRegs) : (s.setRegs r).agenda = s.agenda := rfl
@[simp] theorem State.setRegs_readFails (r : LinkRegs) : (s.setRegs r).readFails = s.readFails := rfl
@[simp] theorem State.setRegs_draws (r : LinkRegs) : (s.setRegs r).draws = s.draws := rfl

/-! ## `State.setMem` -/

@[simp] theorem State.setMem_created (m : Memory) : (s.setMem m).created = s.created := rfl
@[simp] theorem State.setMem_dataChannel (m : Memory) : (s.setMem m).dataChannel = s.dataChannel := rfl
@[simp] theorem State.setMem_clockChannel (m : Memory) : (s.setMem m).clockChannel = s.clockChannel := rfl
@[simp] theorem State.setMem_nec (m : Memory) : (s.setMem m).nec = s.nec := rfl
@[simp] theorem State.setMem_csr (m : Memory) : (s.setMem m).csr = s.csr := rfl
@[simp] theorem State.setMem_regs (m : Memory) : (s.setMem m).regs = s.regs := rfl
@[simp] theorem State.setMem_mem (m : Memory) : (s.setMem m).mem = m := rfl
@[simp] theorem State.setMem_rxq (m : Memory) : (s.setMem m).rxq = s.rxq := rfl
@[simp] theorem State.setMem_ckq (m : Memory) : (s.setMem m).ckq = s.ckq := rfl
@[simp] theorem State.setMem_txt (m : Memory) : (s.setMem m).txt = s.txt := rfl
@[simp] theorem State.setMem_irqt (m : Memory) : (s.setMem m).irqt = s.irqt := rfl
@[simp] theorem State.setMem_result (m : Memory) : (s.setMem m).result = s.result := rfl
@[simp] theorem State.setMem_agenda (m : Memory) : (s.setMem m).agenda = s.agenda := rfl
@[simp] theorem State.setMem_readFails (m : Memory) : (s.setMem m).readFails = s.readFails := rfl
@[simp] theorem State.setMem_draws (m : Memory) : (s.setMem m).draws = s.draws := rfl

/-! ## `State.setNec` -/

@[simp] theorem State.setNec_created (c : Cycles) : (s.setNec c).created = s.created := rfl
@[simp] theorem State.setNec_dataChannel (c : Cycles) : (s.setNec c).dataChannel = s.dataChannel := rfl
@[simp] theorem State.setNec_clockChannel (c : Cycles) : (s.setNec c).clockChannel = s.clockChannel := rfl
@[simp] theorem State.setNec_nec (c : Cycles) : (s.setNec c).nec = c := rfl
@[simp] theorem State.setNec_csr (c : Cycles) : (s.setNec c).csr = s.csr := rfl
@[simp] theorem State.setNec_regs (c : Cycles) : (s.setNec c).regs = s.regs := rfl
@[simp] theorem State.setNec_mem (c : Cycles) : (s.setNec c).mem = s.mem := rfl
@[simp] theorem State.setNec_rxq (c : Cycles) : (s.setNec c).rxq = s.rxq := rfl
@[simp] theorem State.setNec_ckq (c : Cycles) : (s.setNec c).ckq = s.ckq := rfl
@[simp] theorem State.setNec_txt (c : Cycles) : (s.setNec c).txt = s.txt := rfl
@[simp] theorem State.setNec_irqt (c : Cycles) : (s.setNec c).irqt = s.irqt := rfl
@[simp] theorem State.setNec_result (c : Cycles) : (s.setNec c).result = s.result := rfl
@[simp] theorem State.setNec_agenda (c : Cycles) : (s.setNec c).agenda = s.agenda := rfl
@[simp] theorem State.setNec_readFails (c : Cycles) : (s.setNec c).readFails = s.readFails := rfl
@[simp] theorem State.setNec_draws (c : Cycles) : (s.setNec c).draws = s.draws := rfl

/-! ## `State.setCsr` -/

@[simp] theorem State.setCsr_created (c : Cycles) : (s.setCsr c).created = s.created := rfl
@[simp] theorem State.setCsr_dataChannel (c : Cycles) : (s.setCsr c).dataChannel = s.dataChannel := rfl
@[simp] theorem State.setCsr_clockChannel (c : Cycles) : (s.setCsr c).clockChannel = s.clockChannel := rfl
@[simp] theorem State.setCsr_nec (c : Cycles) : (s.setCsr c).nec = s.nec := rfl
@[simp] theorem State.setCsr_csr (c : Cycles) : (s.setCsr c).csr = c := rfl
@[simp] theorem State.setCsr_regs (c : Cycles) : (s.setCsr c).regs = s.regs := rfl
@[simp] theorem State.setCsr_mem (c : Cycles) : (s.setCsr c).mem = s.mem := rfl
@[simp] theorem State.setCsr_rxq (c : Cycles) : (s.setCsr c).rxq = s.rxq := rfl
@[simp] theorem State.setCsr_ckq (c : Cycles) : (s.setCsr c).ckq = s.ckq := rfl
@[simp] theorem State.setCsr_txt (c : Cycles) : (s.setCsr c).txt = s.txt := rfl
@[simp] theorem State.setCsr_irqt (c : Cycles) : (s.setCsr c).irqt = s.irqt := rfl
@[simp] theorem State.setCsr_result (c : Cycles) : (s.setCsr c).result = s.result := rfl
@[simp] theorem State.setCsr_agenda (c : Cycles) : (s.setCsr c).agenda = s.agenda := rfl
@[simp] theorem State.setCsr_readFails (c : Cycles) : (s.setCsr c).readFails = s.readFails := rfl
@[simp] theorem State.setCsr_draws (c : Cycles) : (s.setCsr c).draws = s.draws := rfl

/-! ## `State.setChannels` -/

@[simp] theorem State.setChannels_created (c : Channel) : (s.setChannels c).created = s.created := rfl
@[simp] theorem State.setChannels_dataChannel (c : Channel) : (s.setChannels c).dataChannel = c := rfl
@[simp] theorem State.setChannels_clockChannel (c : Channel) : (s.setChannels c).clockChannel = c := rfl
@[simp] theorem State.setChannels_nec (c : Channel) : (s.setChannels c).nec = s.nec := rfl
@[simp] theorem State.setChannels_csr (c : Channel) : (s.setChannels c).csr = s.csr := rfl
@[simp] theorem State.setChannels_regs (c : Channel) : (s.setChannels c).regs = s.regs := rfl
@[simp] theorem State.setChannels_mem (c : Channel) : (s.setChannels c).mem = s.mem := rfl
@[simp] theorem State.setChannels_rxq (c : Channel) : (s.setChannels c).rxq = s.rxq := rfl
@[simp] theorem State.setChannels_ckq (c : Channel) : (s.setChannels c).ckq = s.ckq := rfl
@[simp] theorem State.setChannels_txt (c : Channel) : (s.setChannels c).txt = s.txt := rfl
@[simp] theorem State.setChannels_irqt (c : Channel) : (s.setChannels c).irqt = s.irqt := rfl
@[simp] theorem State.setChannels_result (c : Channel) : (s.setChannels c).result = s.result := rfl
@[simp] theorem State.setChannels_agenda (c : Channel) : (s.setChannels c).agenda = s.agenda := rfl
@[simp] theorem State.setChannels_readFails (c : Channel) : (s.setChannels c).readFails = s.readFails := rfl
@[simp] theorem State.setChannels_draws (c : Channel) : (s.setChannels c).draws = s.draws := rfl

/-! ## `State.emptyQueues` -/

@[simp] theorem State.emptyQueues_created : (s.emptyQueues).created = s.created := rfl
@[simp] theorem State.emptyQueues_dataChannel : (s.emptyQueues).dataChannel = s.dataChannel := rfl
@[simp] theorem State.emptyQueues_clockChannel : (s.emptyQueues).clockChannel = s.clockChannel := rfl
@[simp] theorem State.emptyQueues_nec : (s.emptyQueues).nec = s.nec := rfl
@[simp] theorem State.emptyQueues_csr : (s.emptyQueues).csr = s.csr := rfl
@[simp] theorem State.emptyQueues_regs : (s.emptyQueues).regs = s.regs := rfl
@[simp] theorem State.emptyQueues_mem : (s.emptyQueues).mem = s.mem := rfl
@[simp] theorem State.emptyQueues_rxq : (s.emptyQueues).rxq = [] := rfl
@[simp] theorem State.emptyQueues_ckq : (s.emptyQueues).ckq = [] := rfl
@[simp] theorem State.emptyQueues_txt : (s.emptyQueues).txt = s.txt := rfl
@[simp] theorem State.emptyQueues_irqt : (s.emptyQueues).irqt = s.irqt := rfl
@[simp] theorem State.emptyQueues_result : (s.emptyQueues).result = s.result := rfl
@[simp] theorem State.emptyQueues_agenda : (s.emptyQueues).agenda = s.agenda := rfl
@[simp] theorem State.emptyQueues_readFails : (s.emptyQueues).readFails = s.readFails := rfl
@[simp] theorem State.emptyQueues_draws : (s.emptyQueues).draws = s.draws := rfl

/-! ## `State.setRxq` -/

@[simp] theorem State.setRxq_created (q : List Byte) : (s.setRxq q).created = s.created := rfl
@[simp] theorem State.setRxq_dataChannel (q : List Byte) : (s.setRxq q).dataChannel = s.dataChannel := rfl
@[simp] theorem State.setRxq_clockChannel (q : List Byte) : (s.setRxq q).clockChannel = s.clockChannel := rfl
@[simp] theorem State.setRxq_nec (q : List Byte) : (s.setRxq q).nec = s.nec := rfl
@[simp] theorem State.setRxq_csr (q : List Byte) : (s.setRxq q).csr = s.csr := rfl
@[simp] theorem State.setRxq_regs (q : List Byte) : (s.setRxq q).regs = s.regs := rfl
@[simp] theorem State.setRxq_mem (q : List Byte) : (s.setRxq q).mem = s.mem := rfl
@[simp] theorem State.setRxq_rxq (q : List Byte) : (s.setRxq q).rxq = q := rfl
@[simp] theorem State.setRxq_ckq (q : List Byte) : (s.setRxq q).ckq = s.ckq := rfl
@[simp] theorem State.setRxq_txt (q : List Byte) : (s.setRxq q).txt = s.txt := rfl
@[simp] theorem State.setRxq_irqt (q : List Byte) : (s.setRxq q).irqt = s.irqt := rfl
@[simp] theorem State.setRxq_result (q : List Byte) : (s.setRxq q).result = s.result := rfl
@[simp] theorem State.setRxq_agenda (q : List Byte) : (s.setRxq q).agenda = s.agenda := rfl
@[simp] theorem State.setRxq_readFails (q : List Byte) : (s.setRxq q).readFails = s.readFails := rfl
@[simp] theorem State.setRxq_draws (q : List Byte) : (s.setRxq q).draws = s.draws := rfl

/-! ## `State.setCkq` -/

@[simp] theorem State.setCkq_created (q : List ClockRead) : (s.setCkq q).created = s.created := rfl
@[simp] theorem State.setCkq_dataChannel (q : List ClockRead) : (s.setCkq q).dataChannel = s.dataChannel := rfl
@[simp] theorem State.setCkq_clockChannel (q : List ClockRead) : (s.setCkq q).clockChannel = s.clockChannel := rfl
@[simp] theorem State.setCkq_nec (q : List ClockRead) : (s.setCkq q).nec = s.nec := rfl
@[simp] theorem State.setCkq_csr (q : List ClockRead) : (s.setCkq q).csr = s.csr := rfl
@[simp] theorem State.setCkq_regs (q : List ClockRead) : (s.setCkq q).regs = s.regs := rfl
@[simp] theorem State.setCkq_mem (q : List ClockRead) : (s.setCkq q).mem = s.mem := rfl
@[simp] theorem State.setCkq_rxq (q : List ClockRead) : (s.setCkq q).rxq = s.rxq := rfl
@[simp] theorem State.setCkq_ckq (q : List ClockRead) : (s.setCkq q).ckq = q := rfl
@[simp] theorem State.setCkq_txt (q : List ClockRead) : (s.setCkq q).txt = s.txt := rfl
@[simp] theorem State.setCkq_irqt (q : List ClockRead) : (s.setCkq q).irqt = s.irqt := rfl
@[simp] theorem State.setCkq_result (q : List ClockRead) : (s.setCkq q).result = s.result := rfl
@[simp] theorem State.setCkq_agenda (q : List ClockRead) : (s.setCkq q).agenda = s.agenda := rfl
@[simp] theorem State.setCkq_readFails (q : List ClockRead) : (s.setCkq q).readFails = s.readFails := rfl
@[simp] theorem State.setCkq_draws (q : List ClockRead) : (s.setCkq q).draws = s.draws := rfl

/-! ## `State.setReadFails` -/

@[simp] theorem State.setReadFails_created (d : List Bool) : (s.setReadFails d).created = s.created := rfl
@[simp] theorem State.setReadFails_dataChannel (d : List Bool) : (s.setReadFails d).dataChannel = s.dataChannel := rfl
@[simp] theorem State.setReadFails_clockChannel (d : List Bool) : (s.setReadFails d).clockChannel = s.clockChannel := rfl
@[simp] theorem State.setReadFails_nec (d : List Bool) : (s.setReadFails d).nec = s.nec := rfl
@[simp] theorem State.setReadFails_csr (d : List Bool) : (s.setReadFails d).csr = s.csr := rfl
@[simp] theorem State.setReadFails_regs (d : List Bool) : (s.setReadFails d).regs = s.regs := rfl
@[simp] theorem State.setReadFails_mem (d : List Bool) : (s.setReadFails d).mem = s.mem := rfl
@[simp] theorem State.setReadFails_rxq (d : List Bool) : (s.setReadFails d).rxq = s.rxq := rfl
@[simp] theorem State.setReadFails_ckq (d : List Bool) : (s.setReadFails d).ckq = s.ckq := rfl
@[simp] theorem State.setReadFails_txt (d : List Bool) : (s.setReadFails d).txt = s.txt := rfl
@[simp] theorem State.setReadFails_irqt (d : List Bool) : (s.setReadFails d).irqt = s.irqt := rfl
@[simp] theorem State.setReadFails_result (d : List Bool) : (s.setReadFails d).result = s.result := rfl
@[simp] theorem State.setReadFails_agenda (d : List Bool) : (s.setReadFails d).agenda = s.agenda := rfl
@[simp] theorem State.setReadFails_readFails (d : List Bool) : (s.setReadFails d).readFails = d := rfl
@[simp] theorem State.setReadFails_draws (d : List Bool) : (s.setReadFails d).draws = s.draws := rfl

/-! ## `State.setAgenda` -/

@[simp] theorem State.setAgenda_created (a : List Event) : (s.setAgenda a).created = s.created := rfl
@[simp] theorem State.setAgenda_dataChannel (a : List Event) : (s.setAgenda a).dataChannel = s.dataChannel := rfl
@[simp] theorem State.setAgenda_clockChannel (a : List Event) : (s.setAgenda a).clockChannel = s.clockChannel := rfl
@[simp] theorem State.setAgenda_nec (a : List Event) : (s.setAgenda a).nec = s.nec := rfl
@[simp] theorem State.setAgenda_csr (a : List Event) : (s.setAgenda a).csr = s.csr := rfl
@[simp] theorem State.setAgenda_regs (a : List Event) : (s.setAgenda a).regs = s.regs := rfl
@[simp] theorem State.setAgenda_mem (a : List Event) : (s.setAgenda a).mem = s.mem := rfl
@[simp] theorem State.setAgenda_rxq (a : List Event) : (s.setAgenda a).rxq = s.rxq := rfl
@[simp] theorem State.setAgenda_ckq (a : List Event) : (s.setAgenda a).ckq = s.ckq := rfl
@[simp] theorem State.setAgenda_txt (a : List Event) : (s.setAgenda a).txt = s.txt := rfl
@[simp] theorem State.setAgenda_irqt (a : List Event) : (s.setAgenda a).irqt = s.irqt := rfl
@[simp] theorem State.setAgenda_result (a : List Event) : (s.setAgenda a).result = s.result := rfl
@[simp] theorem State.setAgenda_agenda (a : List Event) : (s.setAgenda a).agenda = a := rfl
@[simp] theorem State.setAgenda_readFails (a : List Event) : (s.setAgenda a).readFails = s.readFails := rfl
@[simp] theorem State.setAgenda_draws (a : List Event) : (s.setAgenda a).draws = s.draws := rfl

/-! ## `State.setCreated` -/

@[simp] theorem State.setCreated_created (b : Bool) : (s.setCreated b).created = b := rfl
@[simp] theorem State.setCreated_dataChannel (b : Bool) : (s.setCreated b).dataChannel = s.dataChannel := rfl
@[simp] theorem State.setCreated_clockChannel (b : Bool) : (s.setCreated b).clockChannel = s.clockChannel := rfl
@[simp] theorem State.setCreated_nec (b : Bool) : (s.setCreated b).nec = s.nec := rfl
@[simp] theorem State.setCreated_csr (b : Bool) : (s.setCreated b).csr = s.csr := rfl
@[simp] theorem State.setCreated_regs (b : Bool) : (s.setCreated b).regs = s.regs := rfl
@[simp] theorem State.setCreated_mem (b : Bool) : (s.setCreated b).mem = s.mem := rfl
@[simp] theorem State.setCreated_rxq (b : Bool) : (s.setCreated b).rxq = s.rxq := rfl
@[simp] theorem State.setCreated_ckq (b : Bool) : (s.setCreated b).ckq = s.ckq := rfl
@[simp] theorem State.setCreated_txt (b : Bool) : (s.setCreated b).txt = s.txt := rfl
@[simp] theorem State.setCreated_irqt (b : Bool) : (s.setCreated b).irqt = s.irqt := rfl
@[simp] theorem State.setCreated_result (b : Bool) : (s.setCreated b).result = s.result := rfl
@[simp] theorem State.setCreated_agenda (b : Bool) : (s.setCreated b).agenda = s.agenda := rfl
@[simp] theorem State.setCreated_readFails (b : Bool) : (s.setCreated b).readFails = s.readFails := rfl
@[simp] theorem State.setCreated_draws (b : Bool) : (s.setCreated b).draws = s.draws := rfl

/-! ## `State.setDraws` -/

@[simp] theorem State.setDraws_created (n : Nat) : (s.setDraws n).created = s.created := rfl
@[simp] theorem State.setDraws_dataChannel (n : Nat) : (s.setDraws n).dataChannel = s.dataChannel := rfl
@[simp] theorem State.setDraws_clockChannel (n : Nat) : (s.setDraws n).clockChannel = s.clockChannel := rfl
@[simp] theorem State.setDraws_nec (n : Nat) : (s.setDraws n).nec = s.nec := rfl
@[simp] theorem State.setDraws_csr (n : Nat) : (s.setDraws n).csr = s.csr := rfl
@[simp] theorem State.setDraws_regs (n : Nat) : (s.setDraws n).regs = s.regs := rfl
@[simp] theorem State.setDraws_mem (n : Nat) : (s.setDraws n).mem = s.mem := rfl
@[simp] theorem State.setDraws_rxq (n : Nat) : (s.setDraws n).rxq = s.rxq := rfl
@[simp] theorem State.setDraws_ckq (n : Nat) : (s.setDraws n).ckq = s.ckq := rfl
@[simp] theorem State.setDraws_txt (n : Nat) : (s.setDraws n).txt = s.txt := rfl
@[simp] theorem State.setDraws_irqt (n : Nat) : (s.setDraws n).irqt = s.irqt := rfl
@[simp] theorem State.setDraws_result (n : Nat) : (s.setDraws n).result = s.result := rfl
@[simp] theorem State.setDraws_agenda (n : Nat) : (s.setDraws n).agenda = s.agenda := rfl
@[simp] theorem State.setDraws_readFails (n : Nat) : (s.setDraws n).readFails = s.readFails := rfl
@[simp] theorem State.setDraws_draws (n : Nat) : (s.setDraws n).draws = n := rfl

/-! ## `State.returning` -/

@[simp] theorem State.returning_created (r : Result) : (s.returning r).created = s.created := rfl
@[simp] theorem State.returning_dataChannel (r : Result) : (s.returning r).dataChannel = s.dataChannel := rfl
@[simp] theorem State.returning_clockChannel (r : Result) : (s.returning r).clockChannel = s.clockChannel := rfl
@[simp] theorem State.returning_nec (r : Result) : (s.returning r).nec = s.nec := rfl
@[simp] theorem State.returning_csr (r : Result) : (s.returning r).csr = s.csr := rfl
@[simp] theorem State.returning_regs (r : Result) : (s.returning r).regs = s.regs := rfl
@[simp] theorem State.returning_mem (r : Result) : (s.returning r).mem = s.mem := rfl
@[simp] theorem State.returning_rxq (r : Result) : (s.returning r).rxq = s.rxq := rfl
@[simp] theorem State.returning_ckq (r : Result) : (s.returning r).ckq = s.ckq := rfl
@[simp] theorem State.returning_txt (r : Result) : (s.returning r).txt = s.txt := rfl
@[simp] theorem State.returning_irqt (r : Result) : (s.returning r).irqt = s.irqt := rfl
@[simp] theorem State.returning_result (r : Result) : (s.returning r).result = r := rfl
@[simp] theorem State.returning_agenda (r : Result) : (s.returning r).agenda = s.agenda := rfl
@[simp] theorem State.returning_readFails (r : Result) : (s.returning r).readFails = s.readFails := rfl
@[simp] theorem State.returning_draws (r : Result) : (s.returning r).draws = s.draws := rfl

/-! ## `State.txSend` -/

@[simp] theorem State.txSend_created (bs : List Byte) : (s.txSend bs).created = s.created := rfl
@[simp] theorem State.txSend_dataChannel (bs : List Byte) : (s.txSend bs).dataChannel = s.dataChannel := rfl
@[simp] theorem State.txSend_clockChannel (bs : List Byte) : (s.txSend bs).clockChannel = s.clockChannel := rfl
@[simp] theorem State.txSend_nec (bs : List Byte) : (s.txSend bs).nec = s.nec := rfl
@[simp] theorem State.txSend_csr (bs : List Byte) : (s.txSend bs).csr = s.csr := rfl
@[simp] theorem State.txSend_regs (bs : List Byte) : (s.txSend bs).regs = s.regs := rfl
@[simp] theorem State.txSend_mem (bs : List Byte) : (s.txSend bs).mem = s.mem := rfl
@[simp] theorem State.txSend_rxq (bs : List Byte) : (s.txSend bs).rxq = s.rxq := rfl
@[simp] theorem State.txSend_ckq (bs : List Byte) : (s.txSend bs).ckq = s.ckq := rfl
@[simp] theorem State.txSend_txt (bs : List Byte) : (s.txSend bs).txt = s.txt ++ bs := rfl
@[simp] theorem State.txSend_irqt (bs : List Byte) : (s.txSend bs).irqt = s.irqt := rfl
@[simp] theorem State.txSend_result (bs : List Byte) : (s.txSend bs).result = s.result := rfl
@[simp] theorem State.txSend_agenda (bs : List Byte) : (s.txSend bs).agenda = s.agenda := rfl
@[simp] theorem State.txSend_readFails (bs : List Byte) : (s.txSend bs).readFails = s.readFails := rfl
@[simp] theorem State.txSend_draws (bs : List Byte) : (s.txSend bs).draws = s.draws := rfl

/-! ## `State.raiseSio` -/

@[simp] theorem State.raiseSio_created : (s.raiseSio).created = s.created := rfl
@[simp] theorem State.raiseSio_dataChannel : (s.raiseSio).dataChannel = s.dataChannel := rfl
@[simp] theorem State.raiseSio_clockChannel : (s.raiseSio).clockChannel = s.clockChannel := rfl
@[simp] theorem State.raiseSio_nec : (s.raiseSio).nec = s.nec := rfl
@[simp] theorem State.raiseSio_csr : (s.raiseSio).csr = s.csr := rfl
@[simp] theorem State.raiseSio_regs : (s.raiseSio).regs = s.regs := rfl
@[simp] theorem State.raiseSio_mem : (s.raiseSio).mem = s.mem := rfl
@[simp] theorem State.raiseSio_rxq : (s.raiseSio).rxq = s.rxq := rfl
@[simp] theorem State.raiseSio_ckq : (s.raiseSio).ckq = s.ckq := rfl
@[simp] theorem State.raiseSio_txt : (s.raiseSio).txt = s.txt := rfl
@[simp] theorem State.raiseSio_irqt : (s.raiseSio).irqt = s.irqt ++ [.sio] := rfl
@[simp] theorem State.raiseSio_result : (s.raiseSio).result = s.result := rfl
@[simp] theorem State.raiseSio_agenda : (s.raiseSio).agenda = s.agenda := rfl
@[simp] theorem State.raiseSio_readFails : (s.raiseSio).readFails = s.readFails := rfl
@[simp] theorem State.raiseSio_draws : (s.raiseSio).draws = s.draws := rfl

/-! ## `State.setReg` -/

@[simp] theorem State.setReg_created (n : LinkReg) (v : Half) : (s.setReg n v).created = s.created := rfl
@[simp] theorem State.setReg_dataChannel (n : LinkReg) (v : Half) : (s.setReg n v).dataChannel = s.dataChannel := rfl
@[simp] theorem State.setReg_clockChannel (n : LinkReg) (v : Half) : (s.setReg n v).clockChannel = s.clockChannel := rfl
@[simp] theorem State.setReg_nec (n : LinkReg) (v : Half) : (s.setReg n v).nec = s.nec := rfl
@[simp] theorem State.setReg_csr (n : LinkReg) (v : Half) : (s.setReg n v).csr = s.csr := rfl
@[simp] theorem State.setReg_regs (n : LinkReg) (v : Half) : (s.setReg n v).regs = LinkRegs.set s.regs n v := rfl
@[simp] theorem State.setReg_mem (n : LinkReg) (v : Half) : (s.setReg n v).mem = s.mem := rfl
@[simp] theorem State.setReg_rxq (n : LinkReg) (v : Half) : (s.setReg n v).rxq = s.rxq := rfl
@[simp] theorem State.setReg_ckq (n : LinkReg) (v : Half) : (s.setReg n v).ckq = s.ckq := rfl
@[simp] theorem State.setReg_txt (n : LinkReg) (v : Half) : (s.setReg n v).txt = s.txt := rfl
@[simp] theorem State.setReg_irqt (n : LinkReg) (v : Half) : (s.setReg n v).irqt = s.irqt := rfl
@[simp] theorem State.setReg_result (n : LinkReg) (v : Half) : (s.setReg n v).result = s.result := rfl
@[simp] theorem State.setReg_agenda (n : LinkReg) (v : Half) : (s.setReg n v).agenda = s.agenda := rfl
@[simp] theorem State.setReg_readFails (n : LinkReg) (v : Half) : (s.setReg n v).readFails = s.readFails := rfl
@[simp] theorem State.setReg_draws (n : LinkReg) (v : Half) : (s.setReg n v).draws = s.draws := rfl

/-! ## `State.setFlag` -/

@[simp] theorem State.setFlag_created (n : LinkReg) (m : Half) : (s.setFlag n m).created = s.created := rfl
@[simp] theorem State.setFlag_dataChannel (n : LinkReg) (m : Half) : (s.setFlag n m).dataChannel = s.dataChannel := rfl
@[simp] theorem State.setFlag_clockChannel (n : LinkReg) (m : Half) : (s.setFlag n m).clockChannel = s.clockChannel := rfl
@[simp] theorem State.setFlag_nec (n : LinkReg) (m : Half) : (s.setFlag n m).nec = s.nec := rfl
@[simp] theorem State.setFlag_csr (n : LinkReg) (m : Half) : (s.setFlag n m).csr = s.csr := rfl
@[simp] theorem State.setFlag_regs (n : LinkReg) (m : Half) : (s.setFlag n m).regs = LinkRegs.set s.regs n (setBits m (s.reg n)) := rfl
@[simp] theorem State.setFlag_mem (n : LinkReg) (m : Half) : (s.setFlag n m).mem = s.mem := rfl
@[simp] theorem State.setFlag_rxq (n : LinkReg) (m : Half) : (s.setFlag n m).rxq = s.rxq := rfl
@[simp] theorem State.setFlag_ckq (n : LinkReg) (m : Half) : (s.setFlag n m).ckq = s.ckq := rfl
@[simp] theorem State.setFlag_txt (n : LinkReg) (m : Half) : (s.setFlag n m).txt = s.txt := rfl
@[simp] theorem State.setFlag_irqt (n : LinkReg) (m : Half) : (s.setFlag n m).irqt = s.irqt := rfl
@[simp] theorem State.setFlag_result (n : LinkReg) (m : Half) : (s.setFlag n m).result = s.result := rfl
@[simp] theorem State.setFlag_agenda (n : LinkReg) (m : Half) : (s.setFlag n m).agenda = s.agenda := rfl
@[simp] theorem State.setFlag_readFails (n : LinkReg) (m : Half) : (s.setFlag n m).readFails = s.readFails := rfl
@[simp] theorem State.setFlag_draws (n : LinkReg) (m : Half) : (s.setFlag n m).draws = s.draws := rfl

/-! ## `State.clearFlag` -/

@[simp] theorem State.clearFlag_created (n : LinkReg) (m : Half) : (s.clearFlag n m).created = s.created := rfl
@[simp] theorem State.clearFlag_dataChannel (n : LinkReg) (m : Half) : (s.clearFlag n m).dataChannel = s.dataChannel := rfl
@[simp] theorem State.clearFlag_clockChannel (n : LinkReg) (m : Half) : (s.clearFlag n m).clockChannel = s.clockChannel := rfl
@[simp] theorem State.clearFlag_nec (n : LinkReg) (m : Half) : (s.clearFlag n m).nec = s.nec := rfl
@[simp] theorem State.clearFlag_csr (n : LinkReg) (m : Half) : (s.clearFlag n m).csr = s.csr := rfl
@[simp] theorem State.clearFlag_regs (n : LinkReg) (m : Half) : (s.clearFlag n m).regs = LinkRegs.set s.regs n (clearBits m (s.reg n)) := rfl
@[simp] theorem State.clearFlag_mem (n : LinkReg) (m : Half) : (s.clearFlag n m).mem = s.mem := rfl
@[simp] theorem State.clearFlag_rxq (n : LinkReg) (m : Half) : (s.clearFlag n m).rxq = s.rxq := rfl
@[simp] theorem State.clearFlag_ckq (n : LinkReg) (m : Half) : (s.clearFlag n m).ckq = s.ckq := rfl
@[simp] theorem State.clearFlag_txt (n : LinkReg) (m : Half) : (s.clearFlag n m).txt = s.txt := rfl
@[simp] theorem State.clearFlag_irqt (n : LinkReg) (m : Half) : (s.clearFlag n m).irqt = s.irqt := rfl
@[simp] theorem State.clearFlag_result (n : LinkReg) (m : Half) : (s.clearFlag n m).result = s.result := rfl
@[simp] theorem State.clearFlag_agenda (n : LinkReg) (m : Half) : (s.clearFlag n m).agenda = s.agenda := rfl
@[simp] theorem State.clearFlag_readFails (n : LinkReg) (m : Half) : (s.clearFlag n m).readFails = s.readFails := rfl
@[simp] theorem State.clearFlag_draws (n : LinkReg) (m : Half) : (s.clearFlag n m).draws = s.draws := rfl

/-! ## `State.commit` -/

@[simp] theorem State.commit_created (n : LinkReg) (v : Half) : (s.commit n v).created = s.created := rfl
@[simp] theorem State.commit_dataChannel (n : LinkReg) (v : Half) : (s.commit n v).dataChannel = s.dataChannel := rfl
@[simp] theorem State.commit_clockChannel (n : LinkReg) (v : Half) : (s.commit n v).clockChannel = s.clockChannel := rfl
@[simp] theorem State.commit_nec (n : LinkReg) (v : Half) : (s.commit n v).nec = s.nec := rfl
@[simp] theorem State.commit_csr (n : LinkReg) (v : Half) : (s.commit n v).csr = s.csr := rfl
@[simp] theorem State.commit_regs (n : LinkReg) (v : Half) : (s.commit n v).regs = LinkRegs.set s.regs n v := rfl
@[simp] theorem State.commit_mem (n : LinkReg) (v : Half) : (s.commit n v).mem = s.mem := rfl
@[simp] theorem State.commit_rxq (n : LinkReg) (v : Half) : (s.commit n v).rxq = s.rxq := rfl
@[simp] theorem State.commit_ckq (n : LinkReg) (v : Half) : (s.commit n v).ckq = s.ckq := rfl
@[simp] theorem State.commit_txt (n : LinkReg) (v : Half) : (s.commit n v).txt = s.txt := rfl
@[simp] theorem State.commit_irqt (n : LinkReg) (v : Half) : (s.commit n v).irqt = s.irqt := rfl
@[simp] theorem State.commit_result (n : LinkReg) (v : Half) : (s.commit n v).result = .half v := rfl
@[simp] theorem State.commit_agenda (n : LinkReg) (v : Half) : (s.commit n v).agenda = s.agenda := rfl
@[simp] theorem State.commit_readFails (n : LinkReg) (v : Half) : (s.commit n v).readFails = s.readFails := rfl
@[simp] theorem State.commit_draws (n : LinkReg) (v : Half) : (s.commit n v).draws = s.draws := rfl

/-! ## `State.setFileByte` -/

@[simp] theorem State.setFileByte_created (a : Half) (b : Byte) : (s.setFileByte a b).created = s.created := rfl
@[simp] theorem State.setFileByte_dataChannel (a : Half) (b : Byte) : (s.setFileByte a b).dataChannel = s.dataChannel := rfl
@[simp] theorem State.setFileByte_clockChannel (a : Half) (b : Byte) : (s.setFileByte a b).clockChannel = s.clockChannel := rfl
@[simp] theorem State.setFileByte_nec (a : Half) (b : Byte) : (s.setFileByte a b).nec = s.nec := rfl
@[simp] theorem State.setFileByte_csr (a : Half) (b : Byte) : (s.setFileByte a b).csr = s.csr := rfl
@[simp] theorem State.setFileByte_regs (a : Half) (b : Byte) : (s.setFileByte a b).regs = s.regs := rfl
@[simp] theorem State.setFileByte_mem (a : Half) (b : Byte) : (s.setFileByte a b).mem = memSetByte s.mem a.toNat b := rfl
@[simp] theorem State.setFileByte_rxq (a : Half) (b : Byte) : (s.setFileByte a b).rxq = s.rxq := rfl
@[simp] theorem State.setFileByte_ckq (a : Half) (b : Byte) : (s.setFileByte a b).ckq = s.ckq := rfl
@[simp] theorem State.setFileByte_txt (a : Half) (b : Byte) : (s.setFileByte a b).txt = s.txt := rfl
@[simp] theorem State.setFileByte_irqt (a : Half) (b : Byte) : (s.setFileByte a b).irqt = s.irqt := rfl
@[simp] theorem State.setFileByte_result (a : Half) (b : Byte) : (s.setFileByte a b).result = s.result := rfl
@[simp] theorem State.setFileByte_agenda (a : Half) (b : Byte) : (s.setFileByte a b).agenda = s.agenda := rfl
@[simp] theorem State.setFileByte_readFails (a : Half) (b : Byte) : (s.setFileByte a b).readFails = s.readFails := rfl
@[simp] theorem State.setFileByte_draws (a : Half) (b : Byte) : (s.setFileByte a b).draws = s.draws := rfl

/-! ## `State.afterRxRead` -/

@[simp] theorem State.afterRxRead_created (n : Nat) : (s.afterRxRead n).created = s.created := rfl
@[simp] theorem State.afterRxRead_dataChannel (n : Nat) : (s.afterRxRead n).dataChannel = s.dataChannel := rfl
@[simp] theorem State.afterRxRead_clockChannel (n : Nat) : (s.afterRxRead n).clockChannel = s.clockChannel := rfl
@[simp] theorem State.afterRxRead_nec (n : Nat) : (s.afterRxRead n).nec = s.nec := rfl
@[simp] theorem State.afterRxRead_csr (n : Nat) : (s.afterRxRead n).csr = s.csr := rfl
@[simp] theorem State.afterRxRead_regs (n : Nat) : (s.afterRxRead n).regs = s.regs := rfl
@[simp] theorem State.afterRxRead_mem (n : Nat) : (s.afterRxRead n).mem = s.mem := rfl
@[simp] theorem State.afterRxRead_rxq (n : Nat) : (s.afterRxRead n).rxq = s.rxq.drop (s.rxBytes n).length := rfl
@[simp] theorem State.afterRxRead_ckq (n : Nat) : (s.afterRxRead n).ckq = s.ckq := rfl
@[simp] theorem State.afterRxRead_txt (n : Nat) : (s.afterRxRead n).txt = s.txt := rfl
@[simp] theorem State.afterRxRead_irqt (n : Nat) : (s.afterRxRead n).irqt = s.irqt := rfl
@[simp] theorem State.afterRxRead_result (n : Nat) : (s.afterRxRead n).result = s.result := rfl
@[simp] theorem State.afterRxRead_agenda (n : Nat) : (s.afterRxRead n).agenda = s.agenda := rfl
@[simp] theorem State.afterRxRead_readFails (n : Nat) : (s.afterRxRead n).readFails = s.readFails.tail := rfl
@[simp] theorem State.afterRxRead_draws (n : Nat) : (s.afterRxRead n).draws = s.draws := rfl

/-! ## `State.afterClockPoll` -/

@[simp] theorem State.afterClockPoll_created : (s.afterClockPoll).created = s.created := rfl
@[simp] theorem State.afterClockPoll_dataChannel : (s.afterClockPoll).dataChannel = s.dataChannel := rfl
@[simp] theorem State.afterClockPoll_clockChannel : (s.afterClockPoll).clockChannel = s.clockChannel := rfl
@[simp] theorem State.afterClockPoll_nec : (s.afterClockPoll).nec = s.nec := rfl
@[simp] theorem State.afterClockPoll_csr : (s.afterClockPoll).csr = s.csr := rfl
@[simp] theorem State.afterClockPoll_regs : (s.afterClockPoll).regs = s.regs := rfl
@[simp] theorem State.afterClockPoll_mem : (s.afterClockPoll).mem = s.mem := rfl
@[simp] theorem State.afterClockPoll_rxq : (s.afterClockPoll).rxq = s.rxq := rfl
@[simp] theorem State.afterClockPoll_ckq : (s.afterClockPoll).ckq = s.ckq.tail := rfl
@[simp] theorem State.afterClockPoll_txt : (s.afterClockPoll).txt = s.txt := rfl
@[simp] theorem State.afterClockPoll_irqt : (s.afterClockPoll).irqt = s.irqt := rfl
@[simp] theorem State.afterClockPoll_result : (s.afterClockPoll).result = s.result := rfl
@[simp] theorem State.afterClockPoll_agenda : (s.afterClockPoll).agenda = s.agenda := rfl
@[simp] theorem State.afterClockPoll_readFails : (s.afterClockPoll).readFails = s.readFails := rfl
@[simp] theorem State.afterClockPoll_draws : (s.afterClockPoll).draws = s.draws := rfl

end Sys2Proof.Machine
end

