-- ==== Sys2Proof/Laws/Ops.lean ====
section
/-! SUPPORT. One lemma per shared operation that says what it does: counter arithmetic, the six registers, the ports, the
interrupt output, the guard. -/

namespace Sys2Proof.Machine

/-! ## Counters -/

theorem minCounter_eq : minCounter = -2147483648 := by decide

theorem maxCounter_eq : maxCounter = 2147483647 := by decide

/-- Every counter value lies in the signed 32-bit range. -/
theorem cycles_range (c : Cycles) : -2147483648 ≤ c.toInt ∧ c.toInt ≤ 2147483647 := by
  have lower : -(2 : Int) ^ 31 ≤ c.toInt := BitVec.le_toInt c
  have upper : c.toInt < (2 : Int) ^ 31 := BitVec.toInt_lt
  omega

/-- Narrowing answers the counter whose value is the exact integer, and only that one. -/
theorem narrow_eq_some (z : Int) (c : Cycles) : narrow z = some c ↔ c.toInt = z := by
  have range := cycles_range c
  unfold narrow
  rw [minCounter_eq, maxCounter_eq]
  split
  · constructor
    · intro e
      cases e
      show (BitVec.ofInt 32 z).toInt = z
      rw [BitVec.toInt_ofInt]
      simp [Int.bmod]
      omega
    · rintro rfl
      simp
  · rename_i out
    constructor
    · intro e
      cases e
    · rintro rfl
      exact absurd range out

/-- Narrowing answers nothing exactly outside the signed 32-bit range. -/
theorem narrow_eq_none (z : Int) : narrow z = none ↔ ¬(-2147483648 ≤ z ∧ z ≤ 2147483647) := by
  unfold narrow
  rw [minCounter_eq, maxCounter_eq]
  split <;> simp_all

theorem addCycles_eq_some (a c : Cycles) (z : Int) : addCycles a z = some c ↔ c.toInt = a.toInt + z :=
  narrow_eq_some _ _

theorem subCycles_eq_some (a b c : Cycles) : subCycles a b = some c ↔ c.toInt = a.toInt - b.toInt :=
  narrow_eq_some _ _

@[simp] theorem minCycles_toInt (a b : Cycles) : (minCycles a b).toInt = min a.toInt b.toInt := by
  unfold minCycles
  split <;> omega

/-! ## The six link registers -/

@[simp] theorem LinkRegs.get_set_same (r : LinkRegs) (n : LinkReg) (v : Half) :
    LinkRegs.get (LinkRegs.set r n v) n = v := by
  cases n <;> rfl

@[simp] theorem LinkRegs.get_set_ne (r : LinkRegs) {n m : LinkReg} (v : Half) (h : n ≠ m) :
    LinkRegs.get (LinkRegs.set r n v) m = LinkRegs.get r m := by
  cases n <;> cases m <;> first | rfl | exact absurd rfl h

theorem State.reg_setReg (s : State) (n m : LinkReg) (v : Half) :
    (s.setReg n v).reg m = if n = m then v else s.reg m := by
  cases n <;> cases m <;> rfl

@[simp] theorem State.reg_joycnt (s : State) : s.reg .joycnt = s.regs.joycnt := rfl
@[simp] theorem State.reg_joystat (s : State) : s.reg .joystat = s.regs.joystat := rfl
@[simp] theorem State.reg_transLo (s : State) : s.reg .transLo = s.regs.joyTransLo := rfl
@[simp] theorem State.reg_transHi (s : State) : s.reg .transHi = s.regs.joyTransHi := rfl
@[simp] theorem State.reg_recvLo (s : State) : s.reg .recvLo = s.regs.joyRecvLo := rfl
@[simp] theorem State.reg_recvHi (s : State) : s.reg .recvHi = s.regs.joyRecvHi := rfl

@[simp] theorem LinkRegs.set_joycnt (r : LinkRegs) (v : Half) :
    LinkRegs.set r .joycnt v = { r with joycnt := v } := rfl
@[simp] theorem LinkRegs.set_joystat (r : LinkRegs) (v : Half) :
    LinkRegs.set r .joystat v = { r with joystat := v } := rfl
@[simp] theorem LinkRegs.set_transLo (r : LinkRegs) (v : Half) :
    LinkRegs.set r .transLo v = { r with joyTransLo := v } := rfl
@[simp] theorem LinkRegs.set_transHi (r : LinkRegs) (v : Half) :
    LinkRegs.set r .transHi v = { r with joyTransHi := v } := rfl
@[simp] theorem LinkRegs.set_recvLo (r : LinkRegs) (v : Half) :
    LinkRegs.set r .recvLo v = { r with joyRecvLo := v } := rfl
@[simp] theorem LinkRegs.set_recvHi (r : LinkRegs) (v : Half) :
    LinkRegs.set r .recvHi v = { r with joyRecvHi := v } := rfl

/-! ## The interrupt output -/

/-- The conditional raise changes IRQT alone, by one event exactly when IEN is 1. -/
theorem State.raiseIfEnabled_eq (s : State) :
    s.raiseIfEnabled =
      { s with irqt := if ienOf s.regs.joycnt then s.irqt ++ [.sio] else s.irqt } := by
  unfold State.raiseIfEnabled
  rw [State.reg_joycnt]
  cases ienOf s.regs.joycnt <;> rfl

/-- Setting one of the event flags leaves IEN as it was. -/
theorem ienOf_setBits (m old : Half) (h : m.getLsbD 6 = false) : ienOf (setBits m old) = ienOf old := by
  rw [ienOf, setBits, BitVec.getLsbD_or, h, Bool.or_false, ienOf]

/-! ## The ports -/

/-- A data-in read gives nothing, or the first bytes of RXQ. -/
theorem State.rxBytes_cases (s : State) (n : Nat) :
    (s.readFailsNow = true ∧ s.rxBytes n = []) ∨ (s.readFailsNow = false ∧ s.rxBytes n = s.rxq.take n) := by
  unfold State.rxBytes
  cases s.readFailsNow <;> simp

/-- What a read gave and what stays queued make up RXQ. -/
theorem State.rxBytes_append (s : State) (n : Nat) : s.rxBytes n ++ (s.afterRxRead n).rxq = s.rxq := by
  rcases s.rxBytes_cases n with ⟨-, h⟩ | ⟨-, h⟩
  · simp [h]
  · simp only [State.afterRxRead_rxq, h]
    rw [List.length_take]
    rcases Nat.le_total n s.rxq.length with hle | hle
    · rw [Nat.min_eq_left hle, List.take_append_drop]
    · rw [Nat.min_eq_right hle, List.take_of_length_le hle, List.drop_length, List.append_nil]

theorem State.rxBytes_length_le (s : State) (n : Nat) : (s.rxBytes n).length ≤ n := by
  rcases s.rxBytes_cases n with ⟨-, h⟩ | ⟨-, h⟩ <;> simp [h]

/-! ## The guard -/

/-- A guarded operation completes exactly where a block exists and the operation itself completes. -/
theorem whenCreated_eq_next (s t : State) (k : Answer) :
    whenCreated s k = .next t ↔ s.created = true ∧ k = .next t := by
  unfold whenCreated
  split <;> simp_all

theorem whenCreated_of_created {s : State} (h : s.created = true) (k : Answer) : whenCreated s k = k := by
  simp [whenCreated, h]

/-! ## Constants (spec/43_commands.md rule R121, spec/42_sequencer.md rule R107) -/

@[simp] theorem idleGrain_eq : idleGrain = 600#32 := by decide
@[simp] theorem cost_reset : cyclesOf Config.params.cost.reset = 2550#32 := by decide
@[simp] theorem cost_poll : cyclesOf Config.params.cost.poll = 2550#32 := by decide
@[simp] theorem cost_recv : cyclesOf Config.params.cost.recv = 3750#32 := by decide
@[simp] theorem cost_trans : cyclesOf Config.params.cost.trans = 3750#32 := by decide
@[simp] theorem cost_unrecognized : cyclesOf Config.params.cost.unrecognized = 675#32 := by decide

end Sys2Proof.Machine
end

