-- ==== Sys2Proof/Laws/Commands.lean ====
section
/-! SUPPORT. What each dispatched command makes of the state, said once; the dispatcher agrees with exec. -/

namespace Sys2Proof.Machine

/-! ## Setting an event flag leaves IEN -/

theorem ienOf_rst (v : Half) : ienOf (setBits rstMask v) = ienOf v := ienOf_setBits _ _ (by decide)
theorem ienOf_rcv (v : Half) : ienOf (setBits rcvMask v) = ienOf v := ienOf_setBits _ _ (by decide)
theorem ienOf_snd (v : Half) : ienOf (setBits sndMask v) = ienOf v := ienOf_setBits _ _ (by decide)

/-! ## The parts of RECV -/

theorem recvFlagged_eq (s : State) :
    recvFlagged s =
      { s with
        regs :=
          { s.regs with
            joycnt := setBits rcvMask s.regs.joycnt
            joystat := setBits rxaMask s.regs.joystat } } := rfl

theorem storePayload_eq (p : List Byte) (s : State) :
    storePayload p s =
      { s with
        regs :=
          { s.regs with
            joyRecvLo := le16 (payloadByte p s.draws 0) (payloadByte p s.draws 1)
            joyRecvHi := le16 (payloadByte p s.draws 2) (payloadByte p s.draws 3) }
        draws := s.draws + (4 - p.length) } := rfl

/-! ## The commands -/

theorem resetCommand_state (s : State) :
    (resetCommand s).state =
      { s with
        regs := { s.regs with joycnt := setBits rstMask s.regs.joycnt }
        irqt := if ienOf s.regs.joycnt then s.irqt ++ [.sio] else s.irqt
        txt := s.txt ++ [0x00, 0x04, lo8 s.regs.joystat] } := by
  simp only [resetCommand, State.raiseIfEnabled_eq, pollResponse, State.txSend, State.statusByte, State.setFlag,
    State.setReg, State.setRegs, LinkRegs.set_joycnt, State.reg_joycnt, State.reg_joystat, ienOf_rst]

theorem pollCommand_state (s : State) :
    (pollCommand s).state = { s with txt := s.txt ++ [0x00, 0x04, lo8 s.regs.joystat] } := rfl

theorem recvCommand_state (s : State) :
    (recvCommand s).state =
      { s with
        regs :=
          { s.regs with
            joycnt := setBits rcvMask s.regs.joycnt
            joystat := setBits rxaMask s.regs.joystat
            joyRecvLo := le16 (payloadByte (s.rxBytes 4) s.draws 0) (payloadByte (s.rxBytes 4) s.draws 1)
            joyRecvHi := le16 (payloadByte (s.rxBytes 4) s.draws 2) (payloadByte (s.rxBytes 4) s.draws 3) }
        rxq := s.rxq.drop (s.rxBytes 4).length
        readFails := s.readFails.tail
        draws := s.draws + (4 - (s.rxBytes 4).length)
        txt := s.txt ++ [lo8 (setBits rxaMask s.regs.joystat)]
        irqt := if ienOf s.regs.joycnt then s.irqt ++ [.sio] else s.irqt } := by
  simp only [recvCommand, State.raiseIfEnabled_eq, statusResponse, State.txSend, State.statusByte, recvPayload,
    storePayload_eq, recvFlagged_eq, State.afterRxRead, State.setRxq, State.setReadFails,
    State.reg_joystat, ienOf_rcv]
  rfl

theorem transCommand_state (s : State) :
    (transCommand s).state =
      { s with
        regs :=
          { s.regs with
            joycnt := setBits sndMask s.regs.joycnt
            joystat := clearBits txpMask s.regs.joystat }
        txt := s.txt ++
          [lo8 s.regs.joyTransLo, hi8 s.regs.joyTransLo, lo8 s.regs.joyTransHi, hi8 s.regs.joyTransHi,
           lo8 (clearBits txpMask s.regs.joystat)]
        irqt := if ienOf s.regs.joycnt then s.irqt ++ [.sio] else s.irqt } := by
  simp only [transCommand, State.raiseIfEnabled_eq, transResponse, State.txSend, State.statusByte, State.setFlag,
    State.clearFlag, State.setReg, State.setRegs, LinkRegs.set_joycnt, LinkRegs.set_joystat, State.reg_joycnt,
    State.reg_joystat, State.reg_transLo, State.reg_transHi, ienOf_snd]

theorem unrecognizedCommand_state (s : State) : (unrecognizedCommand s).state = s := rfl

@[simp] theorem resetCommand_cost (s : State) : (resetCommand s).cost = 2550#32 := cost_reset
@[simp] theorem pollCommand_cost (s : State) : (pollCommand s).cost = 2550#32 := cost_poll
@[simp] theorem recvCommand_cost (s : State) : (recvCommand s).cost = 3750#32 := cost_recv
@[simp] theorem transCommand_cost (s : State) : (transCommand s).cost = 3750#32 := cost_trans
@[simp] theorem unrecognizedCommand_cost (s : State) : (unrecognizedCommand s).cost = 675#32 :=
  cost_unrecognized

/-! ## The dispatcher -/

/-- A byte dispatches one of the five commands. -/
theorem dispatch_cases (b : Byte) (s : State) :
    (b = 0xFF ∧ dispatch b s = resetCommand s) ∨ (b = 0x00 ∧ dispatch b s = pollCommand s) ∨
      (b = 0x14 ∧ dispatch b s = transCommand s) ∨ (b = 0x15 ∧ dispatch b s = recvCommand s) ∨
      (b ≠ 0xFF ∧ b ≠ 0x00 ∧ b ≠ 0x14 ∧ b ≠ 0x15 ∧ dispatch b s = unrecognizedCommand s) := by
  unfold dispatch decodeCommand
  split_ifs <;> simp_all

/-- The dispatcher and exec run the same command. -/
theorem exec_decodeCommand (b : Byte) (s : State) :
    exec (decodeCommand b) s = .next ((dispatch b s).state.returning (.cycles (dispatch b s).cost)) := by
  unfold dispatch decodeCommand
  split_ifs <;> rfl

/-- The dispatched command neither reads nor writes the counters. -/
theorem dispatch_setCounters (b : Byte) (s : State) (n c : Cycles) :
    (dispatch b { s with nec := n, csr := c }).state = { (dispatch b s).state with nec := n, csr := c } ∧
      (dispatch b { s with nec := n, csr := c }).cost = (dispatch b s).cost := by
  unfold dispatch
  split <;>
    simp only [resetCommand_state, pollCommand_state, recvCommand_state, transCommand_state,
      unrecognizedCommand_state, resetCommand_cost, pollCommand_cost, recvCommand_cost, transCommand_cost,
      unrecognizedCommand_cost, and_true]
  rfl

end Sys2Proof.Machine
end

