-- ==== Sys2Proof/Laws/Memory.lean ====
section
/-! SUPPORT. The register file outside the six registers: a write is read back, leaves every other byte, and keeps the
canonical form. -/

namespace Sys2Proof.Machine

theorem memByte_consCell_same (a : Nat) (b : Byte) (m : Memory) (h : memByte m a = unlistedByte) :
    memByte (consCell a b m) a = b := by
  unfold consCell
  split
  · simp_all
  · simp [memByte]

theorem memByte_consCell_ne {a c : Nat} (b : Byte) (m : Memory) (h : a ≠ c) :
    memByte (consCell a b m) c = memByte m c := by
  unfold consCell
  split
  · rfl
  · simp [memByte, h]

/-- An offset below every listed one is unlisted. -/
theorem memByte_of_all_above (m : Memory) (a : Nat) (h : ∀ c ∈ m, a < c.1) : memByte m a = unlistedByte := by
  induction m with
  | nil => rfl
  | cons cell rest ih =>
    have first := h cell (by simp)
    simp only [memByte]
    rw [if_neg (by omega)]
    exact ih (fun c hc => h c (by simp [hc]))

theorem Memory.wf_cons (k : Nat) (b : Byte) (m : Memory) :
    Memory.wf ((k, b) :: m) = true ↔ b ≠ unlistedByte ∧ (∀ c ∈ m, k < c.1) ∧ Memory.wf m = true := by
  simp [Memory.wf, and_assoc]

/-- Every cell of a written memory was there before, or is the written one. -/
theorem mem_memSetByte (m : Memory) (a : Nat) (b : Byte) (c : Host.Cell) (h : c ∈ memSetByte m a b) :
    c = (a, b) ∨ c ∈ m := by
  induction m with
  | nil =>
    simp only [memSetByte, consCell] at h
    split at h <;> simp_all
  | cons cell rest ih =>
    simp only [memSetByte] at h
    split at h
    · simp only [consCell] at h
      split at h <;> simp_all
    · split at h
      · simp only [consCell] at h
        split at h
        · exact .inr (List.mem_cons_of_mem _ h)
        · rcases List.mem_cons.mp h with rfl | h'
          · exact .inl rfl
          · exact .inr (List.mem_cons_of_mem _ h')
      · rcases List.mem_cons.mp h with rfl | h'
        · simp
        · rcases ih h' with rfl | h''
          · exact .inl rfl
          · exact .inr (List.mem_cons_of_mem _ h'')

theorem Memory.wf_consCell (a : Nat) (b : Byte) (m : Memory) (hm : Memory.wf m = true)
    (h : ∀ c ∈ m, a < c.1) : Memory.wf (consCell a b m) = true := by
  unfold consCell
  split
  · exact hm
  · rename_i hb
    exact (Memory.wf_cons a b m).mpr ⟨hb, h, hm⟩

/-- A write keeps the canonical form. -/
theorem Memory.wf_memSetByte (m : Memory) (a : Nat) (b : Byte) (h : Memory.wf m = true) :
    Memory.wf (memSetByte m a b) = true := by
  induction m with
  | nil => exact Memory.wf_consCell a b [] rfl (by simp)
  | cons cell rest ih =>
    obtain ⟨k, x⟩ := cell
    obtain ⟨hx, hk, hr⟩ := (Memory.wf_cons k x rest).mp h
    simp only [memSetByte]
    split
    · rename_i hlt
      refine Memory.wf_consCell a b _ h ?_
      intro c hc
      rcases List.mem_cons.mp hc with rfl | hc'
      · exact hlt
      · exact Nat.lt_trans hlt (hk c hc')
    · split
      · rename_i heq
        subst heq
        exact Memory.wf_consCell a b rest hr hk
      · rename_i hlt hne
        refine (Memory.wf_cons k x _).mpr ⟨hx, ?_, ih hr⟩
        intro c hc
        rcases mem_memSetByte rest a b c hc with rfl | hc'
        · simp only
          omega
        · exact hk c hc'

/-- A written byte is read back. -/
theorem memByte_memSetByte_same (m : Memory) (a : Nat) (b : Byte) (h : Memory.wf m = true) :
    memByte (memSetByte m a b) a = b := by
  induction m with
  | nil => exact memByte_consCell_same a b [] rfl
  | cons cell rest ih =>
    obtain ⟨k, x⟩ := cell
    obtain ⟨hx, hk, hr⟩ := (Memory.wf_cons k x rest).mp h
    simp only [memSetByte]
    split
    · rename_i hlt
      refine memByte_consCell_same a b _ (memByte_of_all_above _ a ?_)
      intro c hc
      rcases List.mem_cons.mp hc with rfl | hc'
      · exact hlt
      · exact Nat.lt_trans hlt (hk c hc')
    · split
      · rename_i heq
        subst heq
        exact memByte_consCell_same a b rest (memByte_of_all_above rest a hk)
      · rename_i hlt hne
        simp only [memByte]
        rw [if_neg (Ne.symm hne)]
        exact ih hr

/-- A write leaves every other byte. -/
theorem memByte_memSetByte_ne (m : Memory) {a c : Nat} (b : Byte) (h : a ≠ c) :
    memByte (memSetByte m a b) c = memByte m c := by
  induction m with
  | nil => exact memByte_consCell_ne b [] h
  | cons cell rest ih =>
    obtain ⟨k, x⟩ := cell
    simp only [memSetByte]
    split
    · exact memByte_consCell_ne b _ h
    · split
      · rename_i heq
        subst heq
        rw [memByte_consCell_ne b rest h]
        simp [memByte, h]
      · simp only [memByte, ih]

end Sys2Proof.Machine
end

