-- ==== Sys2Proof/Laws/PerInstr.lean ====
section
/-! SUPPORT. The family TableRow: the coded form of a well-formed operation matches, first of all rows of
spec/opcode_table.json, a row of its own mnemonic. -/

namespace Sys2Proof.Laws.TableRow

/-- The first row of the table that `encode i` matches has the mnemonic of `i`. -/
def Statement (i : Instr) : Prop := i.wf = true → tableMnemonic (encode i) = some i.mnemonic

theorem reset : Statement .reset := fun _ => by decide
theorem poll : Statement .poll := fun _ => by decide
theorem recv : Statement .recv := fun _ => by decide
theorem trans : Statement .trans := fun _ => by decide

theorem unrecognized (b : Byte) : Statement (.unrecognized b) := by
  have every : ∀ n : Fin 256, unrecognizedByte (BitVec.ofFin n) = true →
      tableMnemonic (.command (BitVec.ofFin n)) = some .UNRECOGNIZED := by decide +kernel
  exact every b.toFin

theorem wrJoycnt (value : Half) : Statement (.wrJoycnt value) := fun _ => rfl
theorem wrJoystat (value : Half) : Statement (.wrJoystat value) := fun _ => rfl
theorem wrJoyTransLo (value : Half) : Statement (.wrJoyTransLo value) := fun _ => rfl
theorem wrJoyTransHi (value : Half) : Statement (.wrJoyTransHi value) := fun _ => rfl

/-- A 16-bit value under the full mask matches only its own pattern. -/
theorem hits_full (name : Mnemonic) (pattern v : Offset) :
    TableRow.hits ⟨name, pattern, 0xFFFF⟩ v = (v == pattern) := by
  have full : v &&& 0xFFFF#16 = v := by
    have := BitVec.and_allOnes (x := v)
    simpa using this
  exact congrArg (· == pattern) full

theorem wrOther (offset : Offset) (value : Half) : Statement (.wrOther offset value) := by
  intro h
  have h' : notIntercepted offset = true := h
  simp only [notIntercepted, Bool.and_eq_true, bne_iff_ne] at h'
  obtain ⟨⟨⟨h1, h2⟩, h3⟩, h4⟩ := h'
  have e1 : (offset == (0x0140 : Offset)) = false := beq_eq_false_iff_ne.mpr h1
  have e2 : (offset == (0x0158 : Offset)) = false := beq_eq_false_iff_ne.mpr h2
  have e3 : (offset == (0x0154 : Offset)) = false := beq_eq_false_iff_ne.mpr h3
  have e4 : (offset == (0x0156 : Offset)) = false := beq_eq_false_iff_ne.mpr h4
  show Option.map _ (List.find? _ writeRows) = _
  simp only [writeRows, List.find?, hits_full, e1, e2, e3, e4]
  simp [TableRow.hits, Instr.mnemonic]

theorem create : Statement .create := fun _ => rfl
theorem connect (outcome : ConnectOutcome) : Statement (.connect outcome) := fun _ => rfl
theorem teardown : Statement .teardown := fun _ => rfl
theorem destroy : Statement .destroy := fun _ => rfl
theorem onload : Statement .onload := fun _ => rfl
theorem process (elapsed : Cycles) : Statement (.process elapsed) := fun _ => rfl

end Sys2Proof.Laws.TableRow
end

