-- ==== Sys2Proof/Laws/RegisterFile.lean ====
section
/-! SUPPORT. The register file as one space of bytes: halves and bytes, the register map, and what a write of a link
register or of another offset makes of each byte. -/

namespace Sys2Proof.Machine

/-! ## Halves and bytes -/

theorem le16_lo8_hi8 (v : Half) : le16 (lo8 v) (hi8 v) = v := by
  apply BitVec.eq_of_getLsbD_eq
  intro k (hk : k < 16)
  simp only [le16, lo8, hi8, BitVec.getLsbD_or, BitVec.getLsbD_setWidth, BitVec.getLsbD_shiftLeft,
    BitVec.getLsbD_ushiftRight]
  by_cases h : k < 8
  · simp [h, hk]
  · have h8 : k - 8 < 8 := by omega
    have h16 : k - 8 < 16 := by omega
    simp only [h, hk, h8, h16, decide_true, decide_false, Bool.true_and, Bool.false_and, Bool.and_false,
      Bool.false_or, Bool.not_false]
    congr 1
    omega

@[simp] theorem lo8_le16 (b0 b1 : Byte) : lo8 (le16 b0 b1) = b0 := by
  apply BitVec.eq_of_getLsbD_eq
  intro k hk
  have h16 : k < 16 := by omega
  simp [le16, lo8, hk]

@[simp] theorem hi8_le16 (b0 b1 : Byte) : hi8 (le16 b0 b1) = b1 := by
  apply BitVec.eq_of_getLsbD_eq
  intro k hk
  have h16 : 8 + k < 16 := by omega
  have hk16 : k < 16 := by omega
  simp [le16, hi8, hk, h16, hk16]

/-! ## The register map -/

@[simp] theorem regAt_addrOf (r : LinkReg) : regAt (addrOf r) = some r := by
  cases r <;> decide

@[simp] theorem regAt_addrOf_succ (r : LinkReg) : regAt (addrOf r + 1) = none := by
  cases r <;> decide

/-- An offset holds a link register exactly at that register's offset. -/
theorem regAt_eq_some (a : Offset) (r : LinkReg) : regAt a = some r ↔ a = addrOf r := by
  constructor
  · intro h
    unfold regAt at h
    split_ifs at h <;> simp_all
  · rintro rfl
    exact regAt_addrOf r

theorem addrOf_injective {r q : LinkReg} (h : addrOf r = addrOf q) : r = q := by
  have := regAt_addrOf r
  rw [h, regAt_addrOf] at this
  exact (Option.some.inj this).symm

/-- No register stands at the offset above another one's. -/
theorem addrOf_ne_succ (r q : LinkReg) : addrOf q ≠ addrOf r + 1 := by
  intro h
  have := regAt_addrOf q
  rw [h, regAt_addrOf_succ] at this
  cases this

/-! ## One byte -/

theorem fileByte_low (s : State) (r : LinkReg) : s.fileByte (addrOf r) = lo8 (s.reg r) := by
  simp [State.fileByte]

theorem fileByte_high (s : State) (r : LinkReg) : s.fileByte (addrOf r + 1) = hi8 (s.reg r) := by
  simp only [State.fileByte, regAt_addrOf_succ, BitVec.add_sub_cancel, regAt_addrOf]

theorem fileByte_other (s : State) (a : Offset) (h : byteOwner a = none) : s.fileByte a = memByte s.mem a.toNat := by
  unfold byteOwner at h
  unfold State.fileByte
  cases h1 : regAt a with
  | some r => simp [h1] at h
  | none =>
    rw [h1] at h
    simp only at h
    simp only [h]

/-- A byte of the register file is the low or the high byte of a link register, or a byte of the rest. -/
theorem byte_cases (a : Offset) :
    (∃ r : LinkReg, a = addrOf r) ∨ (∃ r : LinkReg, a = addrOf r + 1) ∨ byteOwner a = none := by
  cases h1 : regAt a with
  | some r => exact .inl ⟨r, (regAt_eq_some a r).mp h1⟩
  | none =>
    cases h2 : regAt (a - 1) with
    | some r =>
      refine .inr (.inl ⟨r, ?_⟩)
      have := (regAt_eq_some _ r).mp h2
      rw [← this]
      simp
    | none => exact .inr (.inr (by simp only [byteOwner, h1, h2]))

/-- Two states with the same link registers and the same rest have the same bytes. -/
theorem fileByte_congr {s t : State} (hr : t.regs = s.regs) (hm : t.mem = s.mem) (a : Offset) :
    t.fileByte a = s.fileByte a := by
  unfold State.fileByte State.reg
  rw [hr, hm]

/-- A byte outside the registers that changed is kept. -/
theorem fileByte_of_regs {s t : State} (a : Offset) (hm : t.mem = s.mem)
    (hr : ∀ r : LinkReg, (a = addrOf r ∨ a = addrOf r + 1) → t.reg r = s.reg r) :
    t.fileByte a = s.fileByte a := by
  rcases byte_cases a with ⟨r, rfl⟩ | ⟨r, rfl⟩ | h
  · rw [fileByte_low, fileByte_low, hr r (.inl rfl)]
  · rw [fileByte_high, fileByte_high, hr r (.inr rfl)]
  · rw [fileByte_other t a h, fileByte_other s a h, hm]

/-! ## Reading and writing -/

/-- A read of a link register gives its value. -/
theorem memRead_addrOf (s : State) (r : LinkReg) : s.memRead (addrOf r) = s.reg r := by
  rw [State.memRead, fileByte_low, fileByte_high, le16_lo8_hi8]

theorem cutsLink_addrOf (r : LinkReg) : cutsLink (addrOf r) = false := by
  simp [cutsLink]

theorem memWrite_addrOf (s : State) (r : LinkReg) (v : Half) : s.memWrite (addrOf r) v = s.setReg r v := by
  simp [State.memWrite]

/-- An offset that is no register's and whose 16-bit access cuts none has both its bytes in the rest of the file. -/
theorem owners_of_not_cuts {a : Offset} (h : cutsLink a = false) (hr : regAt a = none) :
    byteOwner a = none ∧ byteOwner (a + 1) = none := by
  simp [cutsLink, hr, touchesLink] at h
  exact h

theorem memWrite_other (s : State) (a : Offset) (v : Half) (hr : regAt a = none) :
    s.memWrite a v = s.setMem (memSetByte (memSetByte s.mem a.toNat (lo8 v)) (a + 1).toNat (hi8 v)) := by
  simp only [State.memWrite, hr]
  rfl

theorem succ_toNat_ne (a : Offset) : (a + 1).toNat ≠ a.toNat := by
  have := a.isLt
  have one : (1 : Offset).toNat = 1 := rfl
  rw [BitVec.toNat_add, one]
  omega

theorem toNat_ne {a b : Offset} (h : a ≠ b) : a.toNat ≠ b.toNat := fun e => h (BitVec.eq_of_toNat_eq e)

/-- What `MemWrite(a, 2, v)` makes of each byte, where the access cuts no link register. -/
theorem memWrite_bytes (s : State) (a : Offset) (v : Half) (hm : Memory.wf s.mem = true) (hc : cutsLink a = false) :
    (s.memWrite a v).fileByte a = lo8 v ∧ (s.memWrite a v).fileByte (a + 1) = hi8 v ∧
      ∀ b : Offset, b ≠ a → b ≠ a + 1 → (s.memWrite a v).fileByte b = s.fileByte b := by
  cases hr : regAt a with
  | some r =>
    obtain rfl := (regAt_eq_some a r).mp hr
    rw [memWrite_addrOf]
    refine ⟨?_, ?_, ?_⟩
    · rw [fileByte_low, State.reg_setReg, if_pos rfl]
    · rw [fileByte_high, State.reg_setReg, if_pos rfl]
    · intro b h1 h2
      refine fileByte_of_regs b rfl ?_
      intro q hq
      rw [State.reg_setReg, if_neg]
      rintro rfl
      rcases hq with rfl | rfl
      · exact h1 rfl
      · exact h2 rfl
  | none =>
    obtain ⟨o1, o2⟩ := owners_of_not_cuts hc hr
    rw [memWrite_other s a v hr]
    refine ⟨?_, ?_, ?_⟩
    · rw [fileByte_other _ a o1, State.setMem_mem, memByte_memSetByte_ne _ _ (succ_toNat_ne a),
        memByte_memSetByte_same _ _ _ hm]
    · rw [fileByte_other _ (a + 1) o2, State.setMem_mem,
        memByte_memSetByte_same _ _ _ (Memory.wf_memSetByte _ _ _ hm)]
    · intro b h1 h2
      rcases byte_cases b with ⟨r, rfl⟩ | ⟨r, rfl⟩ | hb
      · rw [fileByte_low, fileByte_low]
        rfl
      · rw [fileByte_high, fileByte_high]
        rfl
      · rw [fileByte_other _ b hb, fileByte_other _ b hb, State.setMem_mem,
          memByte_memSetByte_ne _ _ (toNat_ne (Ne.symm h2)), memByte_memSetByte_ne _ _ (toNat_ne (Ne.symm h1))]

end Sys2Proof.Machine
end

