-- ==== Sys2Proof/Laws/Sequencer.lean ====
section
/-! SUPPORT. One inversion lemma per step of PROCESS, and from them everything a completed PROCESS can have done. -/

namespace Sys2Proof.Machine

/-- The state a due PROCESS hands to the dispatcher, counters aside: the command byte and a polled outcome are gone. -/
def takenForCommand (s : State) (e : Cycles) : State :=
  { s with
    rxq := s.rxq.tail
    readFails := s.readFails.tail
    ckq := if s.csr.toInt ≤ e.toInt then s.ckq.tail else s.ckq }

/-! ## The steps -/

theorem elapse_eq_some (e : Cycles) (s t : State) :
    elapse e s = some t ↔ ∃ n c : Cycles, n.toInt = s.nec.toInt - e.toInt ∧ c.toInt = s.csr.toInt - e.toInt ∧
      t = { s with nec := n, csr := c } := by
  unfold elapse
  cases hn : subCycles s.nec e with
  | none =>
    constructor
    · intro h
      cases h
    · rintro ⟨n, c, h1, -, -⟩
      rw [(subCycles_eq_some _ _ n).mpr h1] at hn
      cases hn
  | some n =>
    cases hc : subCycles s.csr e with
    | none =>
      constructor
      · intro h
        cases h
      · rintro ⟨n', c, -, h2, -⟩
        rw [(subCycles_eq_some _ _ c).mpr h2] at hc
        cases hc
    | some c =>
      have hn' := (subCycles_eq_some _ _ n).mp hn
      have hc' := (subCycles_eq_some _ _ c).mp hc
      constructor
      · intro h
        cases h
        exact ⟨n, c, hn', hc', rfl⟩
      · rintro ⟨n2, c2, h1, h2, rfl⟩
        obtain rfl : n = n2 := BitVec.eq_of_toInt_eq (hn'.trans h1.symm)
        obtain rfl : c = c2 := BitVec.eq_of_toInt_eq (hc'.trans h2.symm)
        rfl

theorem elapse_eq_none (e : Cycles) (s : State) :
    elapse e s = none ↔ ¬ (inRange (s.nec.toInt - e.toInt) ∧ inRange (s.csr.toInt - e.toInt)) := by
  unfold elapse
  cases hn : subCycles s.nec e with
  | none =>
    have out := (narrow_eq_none _).mp hn
    simp only [inRange, true_iff]
    omega
  | some n =>
    have inn := (subCycles_eq_some _ _ n).mp hn
    have rn := cycles_range n
    cases hc : subCycles s.csr e with
    | none =>
      have out := (narrow_eq_none _).mp hc
      simp only [inRange, true_iff]
      omega
    | some c =>
      have inc := (subCycles_eq_some _ _ c).mp hc
      have rc := cycles_range c
      rw [inn] at rn
      rw [inc] at rc
      simp [inRange, rn, rc]

theorem takeGrant_eq_some (s t : State) :
    takeGrant s.clockRead s.afterClockPoll = some t ↔
      ∃ c : Cycles, c.toInt = s.csr.toInt + s.nextGrant ∧ t = { s with csr := c, ckq := s.ckq.tail } := by
  unfold State.nextGrant
  cases s.clockRead with
  | word b0 b1 b2 b3 =>
    simp only [takeGrant, Option.map_eq_some_iff, addCycles_eq_some, State.afterClockPoll_csr]
    constructor
    · rintro ⟨c, h1, rfl⟩
      exact ⟨c, h1, rfl⟩
    · rintro ⟨c, h1, rfl⟩
      exact ⟨c, h1, rfl⟩
  | nothing =>
    constructor
    · intro h
      cases h
      exact ⟨s.csr, by simp, rfl⟩
    · rintro ⟨c, h1, rfl⟩
      obtain rfl : c = s.csr := BitVec.eq_of_toInt_eq (by simpa using h1)
      rfl
  | short =>
    constructor
    · intro h
      cases h
      exact ⟨s.csr, by simp, rfl⟩
    · rintro ⟨c, h1, rfl⟩
      obtain rfl : c = s.csr := BitVec.eq_of_toInt_eq (by simpa using h1)
      rfl

/-- Step 3a: CSR gains the next grant where the budget is spent, and CKQ loses its head. -/
theorem grantStep_eq_some (s t : State) :
    grantStep s = some t ↔
      ∃ c : Cycles, c.toInt = s.csr.toInt + (if s.csr.toInt ≤ 0 then s.nextGrant else 0) ∧
        t = { s with csr := c, ckq := if s.csr.toInt ≤ 0 then s.ckq.tail else s.ckq } := by
  unfold grantStep
  split
  · exact takeGrant_eq_some s t
  · constructor
    · intro h
      cases h
      exact ⟨s.csr, by simp, rfl⟩
    · rintro ⟨c, h1, rfl⟩
      obtain rfl : c = s.csr := BitVec.eq_of_toInt_eq (by simpa using h1)
      rfl

theorem chargeNec_eq_some (cost : Cycles) (s t : State) :
    chargeNec cost s = some t ↔
      ∃ n : Cycles, n.toInt = s.nec.toInt + cost.toInt ∧ t = { s with nec := n } := by
  simp only [chargeNec, Option.map_eq_some_iff, addCycles_eq_some]
  constructor
  · rintro ⟨n, h1, rfl⟩
    exact ⟨n, h1, rfl⟩
  · rintro ⟨n, h1, rfl⟩
    exact ⟨n, h1, rfl⟩

/-- What the one-byte read gives, in the terms of `commandByte`. -/
theorem rxBytes_one (s : State) :
    (s.commandByte = none ∧ s.rxBytes 1 = [] ∧ s.afterRxRead 1 = { s with readFails := s.readFails.tail }) ∨
      (∃ b : Byte, s.commandByte = some b ∧ s.rxBytes 1 = [b] ∧
        s.afterRxRead 1 = { s with rxq := s.rxq.tail, readFails := s.readFails.tail }) := by
  unfold State.commandByte
  rcases s.rxBytes_cases 1 with ⟨hf, hb⟩ | ⟨hf, hb⟩
  · left
    refine ⟨by simp [hf], hb, ?_⟩
    simp [State.afterRxRead, hb, State.setRxq, State.setReadFails]
  · cases hq : s.rxq with
    | nil =>
      left
      refine ⟨by simp [hf], by simp [hb, hq], ?_⟩
      simp [State.afterRxRead, hb, hq, State.setRxq, State.setReadFails]
    | cons b rest =>
      right
      refine ⟨b, by simp [hf], by simp [hb, hq], ?_⟩
      simp [State.afterRxRead, hb, hq, State.setRxq, State.setReadFails]

/-- Step 3b: the idle grain where no byte is read, else the dispatched command and its cost. -/
theorem commandStep_eq_some (s t : State) :
    commandStep s = some t ↔
      (s.commandByte = none ∧ ∃ n : Cycles, n.toInt = s.nec.toInt + 600 ∧
        t = { s with nec := n, readFails := s.readFails.tail }) ∨
      (∃ b : Byte, s.commandByte = some b ∧ ∃ n : Cycles,
        n.toInt = (dispatch b { s with rxq := s.rxq.tail, readFails := s.readFails.tail }).state.nec.toInt +
          (dispatch b { s with rxq := s.rxq.tail, readFails := s.readFails.tail }).cost.toInt ∧
        t = { (dispatch b { s with rxq := s.rxq.tail, readFails := s.readFails.tail }).state with nec := n }) := by
  have grain : (600#32).toInt = 600 := by decide
  unfold commandStep
  rcases rxBytes_one s with ⟨hc, hb, ha⟩ | ⟨b, hc, hb, ha⟩
  · simp [hc, hb, ha, chargeNec_eq_some, grain]
  · simp [hc, hb, ha, chargeNec_eq_some]

/-! ## What the command takes and keeps -/

theorem dispatch_nec (b : Byte) (s : State) : (dispatch b s).state.nec = s.nec := by
  rcases dispatch_cases b s with ⟨-, h⟩ | ⟨-, h⟩ | ⟨-, h⟩ | ⟨-, h⟩ | ⟨-, -, -, -, h⟩ <;>
    simp [h, resetCommand_state, pollCommand_state, recvCommand_state, transCommand_state,
      unrecognizedCommand_state]

theorem dispatch_csr (b : Byte) (s : State) : (dispatch b s).state.csr = s.csr := by
  rcases dispatch_cases b s with ⟨-, h⟩ | ⟨-, h⟩ | ⟨-, h⟩ | ⟨-, h⟩ | ⟨-, -, -, -, h⟩ <;>
    simp [h, resetCommand_state, pollCommand_state, recvCommand_state, transCommand_state,
      unrecognizedCommand_state]

theorem dispatch_ckq (b : Byte) (s : State) : (dispatch b s).state.ckq = s.ckq := by
  rcases dispatch_cases b s with ⟨-, h⟩ | ⟨-, h⟩ | ⟨-, h⟩ | ⟨-, h⟩ | ⟨-, -, -, -, h⟩ <;>
    simp [h, resetCommand_state, pollCommand_state, recvCommand_state, transCommand_state,
      unrecognizedCommand_state]

/-- Only RECV takes more than its command byte: at most four bytes of payload. -/
theorem dispatch_rxq (b : Byte) (s : State) :
    ∃ k : Nat, k ≤ 4 ∧ (b ≠ 0x15 → k = 0) ∧ (dispatch b s).state.rxq = s.rxq.drop k := by
  rcases dispatch_cases b s with ⟨-, h⟩ | ⟨-, h⟩ | ⟨-, h⟩ | ⟨rfl, h⟩ | ⟨-, -, -, -, h⟩ <;> rw [h]
  case inr.inr.inr.inl =>
    refine ⟨(s.rxBytes 4).length, ?_, fun hne => (hne rfl).elim, by rw [recvCommand_state]⟩
    rcases s.rxBytes_cases 4 with ⟨-, hx⟩ | ⟨-, hx⟩ <;> simp [hx]
  all_goals
    exact ⟨0, by omega, fun _ => rfl, by
      simp [resetCommand_state, pollCommand_state, transCommand_state, unrecognizedCommand_state]⟩

/-- Every cost is one of the three of spec/43_commands.md rule R121. -/
theorem dispatch_cost (b : Byte) (s : State) :
    (dispatch b s).cost.toInt =
      if b = 0xFF ∨ b = 0x00 then 2550 else if b = 0x15 ∨ b = 0x14 then 3750 else 675 := by
  have c1 : (2550#32).toInt = 2550 := by decide
  have c2 : (3750#32).toInt = 3750 := by decide
  have c3 : (675#32).toInt = 675 := by decide
  rcases dispatch_cases b s with ⟨rfl, h⟩ | ⟨rfl, h⟩ | ⟨rfl, h⟩ | ⟨rfl, h⟩ | ⟨h1, h2, h3, h4, h⟩ <;>
    simp_all

/-! ## PROCESS -/

theorem exec_process_eq_next (e : Cycles) (s t : State) :
    exec (.process e) s = .next t ↔ s.created = true ∧ s.linked = true ∧ tick e s = some t := by
  show execProcess e s = .next t ↔ _
  unfold execProcess
  rw [whenCreated_eq_next]
  cases s.linked <;> cases tick e s <;> simp

/-- Everything a completed PROCESS can have done: it was not due and only counted down, or it was due and did one
processing step, with or without a command byte. -/
theorem process_cases {e : Cycles} {s t : State} (h : exec (.process e) s = .next t) :
    s.created = true ∧ s.linked = true ∧
    ((e.toInt < s.nec.toInt ∧ ∃ n c : Cycles, n.toInt = s.nec.toInt - e.toInt ∧ c.toInt = s.csr.toInt - e.toInt ∧
        t = { s with nec := n, csr := c, result := .cycles n }) ∨
     (s.nec.toInt ≤ e.toInt ∧ ∃ n c : Cycles,
        c.toInt = s.csr.toInt - e.toInt + (if s.csr.toInt ≤ e.toInt then s.nextGrant else 0) ∧
        ((s.commandByte = none ∧ n.toInt = min (s.nec.toInt - e.toInt + 600) c.toInt ∧
            t = { s with
                  nec := n
                  csr := c
                  ckq := if s.csr.toInt ≤ e.toInt then s.ckq.tail else s.ckq
                  readFails := s.readFails.tail
                  result := .cycles n }) ∨
         (∃ b : Byte, s.commandByte = some b ∧
            n.toInt = min (s.nec.toInt - e.toInt + (dispatch b (takenForCommand s e)).cost.toInt) c.toInt ∧
            t = { (dispatch b (takenForCommand s e)).state with nec := n, csr := c, result := .cycles n })))) := by
  obtain ⟨hcreated, hlinked, htick⟩ := (exec_process_eq_next e s t).mp h
  refine ⟨hcreated, hlinked, ?_⟩
  obtain ⟨s1, helapse, hrest⟩ := Option.bind_eq_some_iff.mp htick
  obtain ⟨n1, c1, hn1, hc1, rfl⟩ := (elapse_eq_some e s s1).mp helapse
  by_cases hdue : n1.toInt ≤ 0
  · right
    refine ⟨by omega, ?_⟩
    simp only [isDue, hdue, decide_true, if_true, processingStep] at hrest
    obtain ⟨t0, ht0, rfl⟩ := Option.map_eq_some_iff.mp hrest
    obtain ⟨s3, hs3, rfl⟩ := Option.map_eq_some_iff.mp ht0
    obtain ⟨s2, hs2, hcmd⟩ := Option.bind_eq_some_iff.mp hs3
    obtain ⟨c2, hc2, rfl⟩ := (grantStep_eq_some _ _).mp hs2
    have hpoll : c1.toInt ≤ 0 ↔ s.csr.toInt ≤ e.toInt := by omega
    have hgrant : State.nextGrant { s with nec := n1, csr := c1 } = s.nextGrant := rfl
    simp only [hpoll, hgrant] at hc2
    rcases (commandStep_eq_some _ _).mp hcmd with ⟨hb, n3, hn3, rfl⟩ | ⟨b, hb, n3, hn3, rfl⟩
    · refine ⟨minCycles n3 c2, c2, by rw [hc2, hc1], .inl ⟨hb, ?_, ?_⟩⟩
      · rw [minCycles_toInt, hn3, hn1]
      · simp only [hpoll]
        rfl
    · have hset := dispatch_setCounters b (takenForCommand s e) n1 c2
      have hstate :
          ({ s with
              nec := n1
              csr := c2
              ckq := if c1.toInt ≤ 0 then s.ckq.tail else s.ckq
              rxq := s.rxq.tail
              readFails := s.readFails.tail } : State) =
            { takenForCommand s e with nec := n1, csr := c2 } := by
        simp only [hpoll, takenForCommand]
      simp only [hstate, hset.1, hset.2] at hn3 ⊢
      refine ⟨minCycles n3 c2, c2, by rw [hc2, hc1], .inr ⟨b, hb, ?_, rfl⟩⟩
      rw [minCycles_toInt, hn3, hn1]
  · left
    refine ⟨by omega, n1, c1, hn1, hc1, ?_⟩
    simp only [isDue, hdue, decide_false, Bool.false_eq_true, if_false, Option.map_some,
      Option.some.injEq] at hrest
    rw [← hrest]
    rfl

end Sys2Proof.Machine
end

