-- ==== Sys2Proof/Laws/Step.lean ====
section
/-! SUPPORT. When RUN ends; a step serves the head of the agenda; what serving each kind of event can do; what the meanings of the
register writes and of the lifecycle operations can do. -/

namespace Sys2Proof.Machine

/-- RUN ends exactly after a tick that leaves RXQ empty and NEC at the idle grain or at CSR (log entry 29). -/
theorem runDone_iff (t : State) : runDone t = true ↔ t.rxq = [] ∧ (t.nec = idleGrain ∨ t.nec = t.csr) := by
  simp [runDone]

/-- A RUN that answers next went through ticks that answer next: it ends after the first one, or goes on from there. -/
theorem runTicks_succ {fuel : Nat} {e : Cycles} {s u : State} (h : runTicks (fuel + 1) e s = .next u) :
    ∃ t : State, exec (.process e) s = .next t ∧
      ((runDone t = true ∧ u = t) ∨ (runDone t = false ∧ runTicks fuel (nextElapsed t.nec) t = .next u)) := by
  simp only [runTicks] at h
  split at h
  case h_1 t ht =>
    refine ⟨t, ht, ?_⟩
    cases hd : runDone t with
    | true =>
      rw [hd] at h
      cases h
      exact .inl ⟨rfl, rfl⟩
    | false =>
      rw [hd] at h
      exact .inr ⟨rfl, h⟩
  all_goals cases h

theorem step_cons {s : State} {ev : Event} {rest : List Event} (h : s.agenda = ev :: rest) :
    step s = serve ev (s.setAgenda rest) := by
  simp only [step, serveNext, h]

theorem step_nil {s : State} (h : s.agenda = []) : step s = .next s := by
  simp only [step, serveNext, h]

/-- With no event between the halves of a 32-bit store, the high half comes next. -/
@[simp] theorem insertAfter_zero (ev : Event) (coming : List Event) : insertAfter 0 ev coming = ev :: coming := rfl

/-- With more events between the halves, the head of the agenda comes next. -/
@[simp] theorem insertAfter_succ (gap : Nat) (ev first : Event) (rest : List Event) :
    insertAfter (gap + 1) ev (first :: rest) = first :: insertAfter gap ev rest := rfl

/-- At the end of the agenda the high half is last, whatever the gap. -/
@[simp] theorem insertAfter_nil (gap : Nat) (ev : Event) : insertAfter gap ev [] = [ev] := by
  cases gap <;> rfl

/-- A store of a 16-bit value widened to the store's operand stores that value. -/
theorem setWidth_half (v : Half) : (v.setWidth 32).setWidth 16 = v := by
  simp

/-- Where a 16-bit access cuts a link register, its offset selects WR_OTHER. -/
theorem decodeWrite_of_cuts {a : Offset} (h : cutsLink a = true) (v : Half) : decodeWrite a v = .wrOther a v := by
  simp only [cutsLink, Bool.and_eq_true] at h
  have none_at : regAt a = none := by simpa using h.1
  have ne : ∀ r : LinkReg, a ≠ addrOf r := by
    intro r e
    rw [e, regAt_addrOf] at none_at
    cases none_at
  simp [decodeWrite, ne]

/-- A completed register write stored a value of one link register, with TXP set before it where the register is a
transmit register, or wrote the register file at an offset that cuts no link register; it returned the value. -/
theorem write_cases {i : Instr} {s t : State} (hi : i.isWrite = true) (h : exec i s = .next t) :
    s.created = true ∧
    ((∃ v : Half, i = .wrJoycnt v ∧ t = s.commit .joycnt (joycntStored s.regs.joycnt v)) ∨
     (∃ v : Half, i = .wrJoystat v ∧ t = s.commit .joystat (joystatStored s.regs.joystat v)) ∨
     (∃ v : Half, i = .wrJoyTransLo v ∧ t = (markTransmitPending s).commit .transLo v) ∨
     (∃ v : Half, i = .wrJoyTransHi v ∧ t = (markTransmitPending s).commit .transHi v) ∨
     (∃ (a : Offset) (v : Half), i = .wrOther a v ∧ cutsLink a = false ∧ t = (s.memWrite a v).returning (.half v))) := by
  cases i <;> try cases hi
  case wrOther a v =>
    obtain ⟨hc, h⟩ := (whenCreated_eq_next _ _ _).mp h
    cases hcut : cutsLink a with
    | true =>
      rw [hcut] at h
      cases h
    | false =>
      rw [hcut] at h
      cases h
      simp [hc, hcut]
  all_goals
    obtain ⟨hc, h⟩ := (whenCreated_eq_next _ _ _).mp h
    cases h
    simp [hc]

/-- A completed lifecycle operation: a new block, or one of the four operations on an existing one. -/
theorem lifecycle_cases {i : Instr} {s t : State} (hi : i.isLifecycle = true) (h : exec i s = .next t) :
    (i = .create ∧ t = (newBlock s).returning .nothing) ∨
    (s.created = true ∧
      ((∃ o : ConnectOutcome, i = .connect o ∧ t = connectWith o s) ∨
       (i = .teardown ∧ t = (closeChannels s).returning .nothing) ∨
       (i = .destroy ∧ t = ((closeChannels s).setCreated false).returning .nothing) ∨
       (i = .onload ∧ t = ((s.setNec 0).setCsr 0).returning (.bool true)))) := by
  cases i <;> try cases hi
  case create =>
    cases h
    exact .inl ⟨rfl, rfl⟩
  all_goals
    obtain ⟨hc, h⟩ := (whenCreated_eq_next _ _ _).mp h
    cases h
    simp [hc]

/-- What CONNECT leaves (spec/40_link_lifecycle.md rule R81). -/
theorem connectWith_cases (o : ConnectOutcome) (s : State) :
    (o = .ok ∧ connectWith o s =
      { s with dataChannel := .connected, clockChannel := .connected, rxq := [], ckq := [], result := .bool true }) ∨
    (o ≠ .ok ∧ (s.dataChannel = .connected ∨ s.clockChannel = .connected) ∧ connectWith o s =
      { s with dataChannel := .absent, clockChannel := .absent, rxq := [], ckq := [], result := .bool false }) ∨
    (o ≠ .ok ∧ s.dataChannel = .absent ∧ s.clockChannel = .absent ∧ connectWith o s =
      { s with dataChannel := .absent, clockChannel := .absent, result := .bool false }) := by
  cases hd : s.dataChannel <;> cases hk : s.clockChannel <;> cases o <;>
    simp [connectWith, hd, hk, closeChannels, State.returning, State.setChannels, State.emptyQueues]

/-- A completed command, in the dispatcher's terms. -/
theorem command_cases {i : Instr} {s t : State} (hi : i.isCommand = true) (h : exec i s = .next t) :
    (i = .reset ∧ t = (resetCommand s).state.returning (.cycles 2550#32)) ∨
    (i = .poll ∧ t = (pollCommand s).state.returning (.cycles 2550#32)) ∨
    (i = .recv ∧ t = (recvCommand s).state.returning (.cycles 3750#32)) ∨
    (i = .trans ∧ t = (transCommand s).state.returning (.cycles 3750#32)) ∨
    (∃ b : Byte, i = .unrecognized b ∧ t = s.returning (.cycles 675#32)) := by
  cases i <;> try cases hi
  case reset =>
    cases h
    simp
  case poll =>
    cases h
    simp
  case recv =>
    cases h
    simp
  case trans =>
    cases h
    simp
  case unrecognized b =>
    cases h
    refine .inr (.inr (.inr (.inr ⟨b, rfl, ?_⟩)))
    simp [unrecognizedCommand_state]

/-- Every operation is a command, a register write, a lifecycle operation or PROCESS. -/
theorem kind_cases (i : Instr) :
    i.isCommand = true ∨ i.isWrite = true ∨ i.isLifecycle = true ∨ ∃ e : Cycles, i = .process e := by
  cases i <;> simp [Instr.isCommand, Instr.isWrite, Instr.isLifecycle]

end Sys2Proof.Machine
end

