-- ==== Sys2Proof/Tests/Slice0.lean ====
section
/-! SUPPORT. Tests of single operations, their results taken from the vectors and examples of spec/95_test_vectors.md and
the tables of spec/30_encoding.md, and a witness for the hypotheses of every statement that has some. -/

open Sys2Proof Sys2Proof.Machine

namespace Sys2Proof.Tests

/-! ## Small states -/

/-- The state an answer gives, if it gives one. -/
def nextOf : Answer → Option State
  | .next t => some t
  | .fault _ => none
  | .refused _ => none

/-- The reason an answer refuses, if it does. -/
def stopOf : Answer → Option Refusal
  | .next _ => none
  | .fault _ => none
  | .refused r => some r

/-- Registers at zero. -/
def zeroRegs : LinkRegs := ⟨0, 0, 0, 0, 0, 0⟩

/-- A block without channels. -/
def block (r : LinkRegs) : State := { State.reset with created := true, regs := r }

/-- A linked block. -/
def linked (n c : Cycles) (rx : List Byte) (ck : List ClockRead) : State :=
  { State.reset with
    created := true
    dataChannel := .connected
    clockChannel := .connected
    nec := n
    csr := c
    rxq := rx
    ckq := ck }

/-- A linked block with registers of its own. -/
def linkedWith (r : LinkRegs) (rx : List Byte) : State := { linked 0 0 rx [] with regs := r }

/-- The clock bytes of `GRANT 1000` (spec/20_memory.md rule R42). -/
def grant1000 : ClockRead := .word 0x00 0x00 0x03 0xE8

/-- NEC, CSR and the returned value after a PROCESS. -/
def counters (a : Answer) : Option (Cycles × Cycles × Result) := (nextOf a).map (fun t => (t.nec, t.csr, t.result))

/-- The registers, the sent bytes, the number of raise events and the returned value. -/
def outcome (a : Answer) : Option (LinkRegs × List Byte × Nat × Result) :=
  (nextOf a).map (fun t => (t.regs, t.txt, t.irqt.length, t.result))

/-- JOYCNT, JOYSTAT and the returned value. -/
def flags (a : Answer) : Option (Half × Half × Result) :=
  (nextOf a).map (fun t => (t.regs.joycnt, t.regs.joystat, t.result))

/-! ## Well-formedness -/

theorem test_wf_refuses_recognized_bytes :
    Instr.wf (.unrecognized 0xFF) = false ∧ Instr.wf (.unrecognized 0x00) = false ∧
      Instr.wf (.unrecognized 0x15) = false ∧ Instr.wf (.unrecognized 0x14) = false := by decide

theorem test_wf_refuses_intercepted_offsets :
    Instr.wf (.wrOther 0x0140 1) = false ∧ Instr.wf (.wrOther 0x0158 1) = false ∧
      Instr.wf (.wrOther 0x0154 1) = false ∧ Instr.wf (.wrOther 0x0156 1) = false := by decide

theorem test_wf_admits_the_others :
    Instr.wf (.unrecognized 0x16) = true ∧ Instr.wf (.wrOther 0x0150 1) = true ∧ Instr.wf .recv = true := by decide

/-! ## Decoding, from the words of spec/30_encoding.md rules R62, R65, R68 and spec/20_memory.md rule R41 -/

theorem test_decode_reset : decodeTableWord 8 0xFF = some .reset := by decide
theorem test_decode_poll : decodeTableWord 8 0x00 = some .poll := by decide
theorem test_decode_recv : decodeTableWord 8 0x15 = some .recv := by decide
theorem test_decode_trans : decodeTableWord 8 0x14 = some .trans := by decide

/-- The decoder boundary vectors after V45. -/
theorem test_decode_boundaries :
    [0x01, 0x13, 0x16, 0xFE, 0x7F, 0x80, 0xEB, 0xEA].map (decodeTableWord 8) =
      [some (.unrecognized 0x01), some (.unrecognized 0x13), some (.unrecognized 0x16), some (.unrecognized 0xFE),
       some (.unrecognized 0x7F), some (.unrecognized 0x80), some (.unrecognized 0xEB),
       some (.unrecognized 0xEA)] := by decide

theorem test_decode_writes :
    decodeTableWord 32 0x00470140 = some (.wrJoycnt 0x0047) ∧
      decodeTableWord 32 0x00100158 = some (.wrJoystat 0x0010) ∧
      decodeTableWord 32 0xBEEF0154 = some (.wrJoyTransLo 0xBEEF) ∧
      decodeTableWord 32 0xDEAD0156 = some (.wrJoyTransHi 0xDEAD) ∧
      decodeTableWord 32 0x56780150 = some (.wrOther 0x0150 0x5678) := by decide

theorem test_decode_calls :
    decode (.call .create) = .create ∧ decode (.call (.connect .failClock)) = .connect .failClock ∧
      decode (.call .teardown) = .teardown ∧ decode (.call .destroy) = .destroy ∧
      decode (.call .onload) = .onload ∧ decode (.call (.process 600)) = .process 600 := by decide

/-- `RECV 0x12345678` and `GRANT 1000` as their bytes (programs P1 and P3). -/
theorem test_peer_bytes :
    recvBytes 0x12345678 = [0x15, 0x78, 0x56, 0x34, 0x12] ∧ grantRead 1000 = grant1000 ∧
      grantRead 20000 = .word 0x00 0x00 0x4E 0x20 := by decide

/-! ## Register writes, V1 to V17 -/

theorem test_wrJoycnt_V4 :
    flags (exec (.wrJoycnt 0x0005) (block { zeroRegs with joycnt := 0xFFBF })) =
      some (0xFFBA, 0x0000, .half 0xFFBA) := by decide

theorem test_wrJoycnt_V5 :
    flags (exec (.wrJoycnt 0xFFFF) (block zeroRegs)) = some (0x0040, 0x0000, .half 0x0040) := by decide

theorem test_wrJoystat_V9 :
    flags (exec (.wrJoystat 0x0000) (block { zeroRegs with joystat := 0x003A })) =
      some (0x0000, 0x000A, .half 0x000A) := by decide

theorem test_wrJoystat_V11 :
    flags (exec (.wrJoystat 0x0020) (block { zeroRegs with joystat := 0xFFFF })) =
      some (0x0000, 0xFFEF, .half 0xFFEF) := by decide

theorem test_wrJoyTransLo_V13 :
    (nextOf (exec (.wrJoyTransLo 0xBEEF) (block { zeroRegs with joystat := 0x0030 }))).map (fun t => t.regs) =
      some { zeroRegs with joystat := 0x0038, joyTransLo := 0xBEEF } := by decide

theorem test_wrJoyTransHi_V14 :
    (nextOf (exec (.wrJoyTransHi 0xDEAD) (block { zeroRegs with joystat := 0x0038 }))).map (fun t => t.regs) =
      some { zeroRegs with joystat := 0x0038, joyTransHi := 0xDEAD } := by decide

theorem test_wrOther_V16 :
    (nextOf (exec (.wrOther 0x0150 0x0000) (block { zeroRegs with joystat := 0x0002, joyRecvLo := 0x5678 }))).map
      (fun t => (t.regs, t.result)) = some ({ zeroRegs with joystat := 0x0002 }, .half 0x0000) := by decide

/-- A register of the rest of the file: two bytes, low byte first, and zero is not listed. -/
theorem test_wrOther_rest_of_file :
    (nextOf (exec (.wrOther 0x0134 0x8000) (block zeroRegs))).map (fun t => t.mem) =
      some [(0x135, 0x80)] := by decide

theorem test_load_V17 :
    serve (.load 0x0150) (block { zeroRegs with joystat := 0x0002, joyRecvLo := 0x5678 }) =
      .next { block { zeroRegs with joystat := 0x0002, joyRecvLo := 0x5678 } with result := .half 0x5678 } := rfl

/-! ## The sequencer, V20 to V29d -/

theorem test_process_V20 :
    counters (exec (.process 200) (linked 600 1000 [0xFF] [grant1000])) = some (400, 800, .cycles 400) := by decide

theorem test_process_V22 :
    counters (exec (.process 600) (linked 600 1000 [] [])) = some (400, 400, .cycles 400) := by decide

/-- Program P1 of the vectors: RUN ends after the tick that returns the idle grain, and after the clamped one. -/
theorem test_run_P1 :
    counters (runTicks 3 0 (linked 0 0 [] [grant1000])) = some (600, 1000, .cycles 600) ∧
      counters (runTicks 3 600 (linked 600 1000 [] [])) = some (400, 400, .cycles 400) := by decide

theorem test_process_V25 :
    counters (exec (.process 10) (linked 0 0 [] [.word 0xFF 0xFF 0xFF 0xFF])) =
      some (BitVec.ofInt 32 (-11), BitVec.ofInt 32 (-11), .cycles (BitVec.ofInt 32 (-11))) := by decide

theorem test_process_V26 :
    counters (exec (.process 0) (linked 0 (BitVec.ofInt 32 (-50)) [] [grant1000])) =
      some (600, 950, .cycles 600) := by decide

theorem test_process_V29b :
    stopOf (exec (.process (BitVec.ofInt 32 (-1))) (linked 0 2147483647 [] [])) = some .counterOverflow := by decide

theorem test_process_V29c : stopOf (exec (.process 0) (block zeroRegs)) = some .notConnected := by decide

theorem test_process_V29d :
    outcome (exec (.process 0) (linked 0 0 [0xFF] [])) =
      some ({ zeroRegs with joycnt := 0x0001 }, [0x00, 0x04, 0x00], 0, .cycles 0) := by decide

/-- A failed read is no data: the idle grain, and the byte stays (spec/42_sequencer.md rule R107). -/
theorem test_process_failed_read :
    (nextOf (exec (.process 0) { linked 0 5000 [0xFF] [] with readFails := [true] })).map
      (fun t => (t.nec, t.rxq, t.regs)) = some (600, [0xFF], zeroRegs) := by decide

/-! ## Commands, V30 to V45 -/

theorem test_reset_V30 :
    outcome (exec .reset (block { zeroRegs with joycnt := 0x0040, joystat := 0x0010 })) =
      some ({ zeroRegs with joycnt := 0x0041, joystat := 0x0010 }, [0x00, 0x04, 0x10], 1, .cycles 2550) := by decide

theorem test_reset_V31 :
    outcome (exec .reset (block zeroRegs)) =
      some ({ zeroRegs with joycnt := 0x0001 }, [0x00, 0x04, 0x00], 0, .cycles 2550) := by decide

theorem test_poll_V33 :
    outcome (exec .poll (block { zeroRegs with joycnt := 0x0047, joystat := 0x003A })) =
      some ({ zeroRegs with joycnt := 0x0047, joystat := 0x003A }, [0x00, 0x04, 0x3A], 0, .cycles 2550) := by decide

theorem test_poll_V34 :
    outcome (exec .poll (block { zeroRegs with joystat := 0x1234 })) =
      some ({ zeroRegs with joystat := 0x1234 }, [0x00, 0x04, 0x34], 0, .cycles 2550) := by decide

theorem test_trans_V35 :
    outcome (exec .trans (block ⟨0x0040, 0x0038, 0xBEEF, 0xDEAD, 0, 0⟩)) =
      some (⟨0x0044, 0x0030, 0xBEEF, 0xDEAD, 0, 0⟩, [0xEF, 0xBE, 0xAD, 0xDE, 0x30], 1, .cycles 3750) := by decide

theorem test_trans_V36 :
    outcome (exec .trans (block ⟨0x0000, 0x0020, 0x1234, 0x5678, 0, 0⟩)) =
      some (⟨0x0004, 0x0020, 0x1234, 0x5678, 0, 0⟩, [0x34, 0x12, 0x78, 0x56, 0x20], 0, .cycles 3750) := by decide

theorem test_recv_V38 :
    outcome (exec .recv (linkedWith { zeroRegs with joycnt := 0x0040, joystat := 0x0030 } [0x78, 0x56, 0x34, 0x12])) =
      some (⟨0x0042, 0x0032, 0, 0, 0x5678, 0x1234⟩, [0x32], 1, .cycles 3750) := by decide

/-- V40: the low half is the two bytes that arrived; the high half, two draws, is not looked at. -/
theorem test_recv_V40 :
    (nextOf (exec .recv (linkedWith zeroRegs [0xAA, 0xBB]))).map
      (fun t => (t.regs.joyRecvLo, t.regs.joycnt, t.regs.joystat, t.txt, t.draws)) =
      some (0xBBAA, 0x0002, 0x0002, [0x02], 2) := by decide

theorem test_unrecognized_V43 :
    exec (.unrecognized 0x42) (block zeroRegs) = .next { block zeroRegs with result := .cycles 675 } := rfl

/-! ## Lifecycle, V50 to V58 -/

theorem test_connect_V50 :
    exec (.connect .failClock) (block zeroRegs) = .next { block zeroRegs with result := .bool false } := rfl

theorem test_connect_V53 :
    exec (.connect .failData) (linked 7 9 [0x00] [.short]) =
      .next { block zeroRegs with nec := 7, csr := 9, result := .bool false } := rfl

theorem test_create_V52 :
    (nextOf (exec .create (linked 7 9 [0x00] [.short]))).map
      (fun t => (t.dataChannel, t.clockChannel, t.rxq, t.ckq)) = some (.absent, .absent, [], []) := by decide

theorem test_teardown_V54 :
    exec .teardown (linked 7 9 [0x00] [.short]) = .next { block zeroRegs with nec := 7, csr := 9 } := rfl

theorem test_destroy_keeps_the_registers :
    (nextOf (exec .destroy (linkedWith ⟨1, 2, 3, 4, 5, 6⟩ [0x00]))).map
      (fun t => (t.created, t.dataChannel, t.regs)) = some (false, .absent, ⟨1, 2, 3, 4, 5, 6⟩) := by decide

theorem test_onload_V55 :
    exec .onload (linked 1234 (BitVec.ofInt 32 (-77)) [0xFF] [.short]) =
      .next { linked 0 0 [0xFF] [.short] with result := .bool true } := rfl

/-! ## Notation (spec/30_encoding.md rule R70) and stores of other sizes (spec/20_memory.md rule R43) -/

/-- `RUN` of program P2: RESET, POLL, then the idle grain ends it. -/
theorem test_run_P2 :
    counters (runTicks 3 0 (linked 0 0 [0xFF, 0x00] [.word 0x00 0x01 0x86 0xA0])) =
      some (600, 94900, .cycles 600) := by decide

/-- `ACK RCV` in a state with all flags and IEN writes 0x0042. -/
theorem test_ack : ack 0x0002 (block { zeroRegs with joycnt := 0x0047 }) = .store .half 0x0140 0x0042 := by decide

/-- `WR32 JOY_TRANS, 0xDEADBEEF` (program P3, step 3). -/
theorem test_wr32 :
    wr32Trans 0xDEADBEEF = [.store .half 0x0154 0xBEEF, .store .half 0x0156 0xDEAD] := by decide

/-- Hazard R172: with one event between the halves of a 32-bit store, a TRANS sends the new low half and the old high
half. -/
theorem test_torn_word :
    (nextOf (step { linkedWith ⟨0, 0, 0x1111, 0x2222, 0, 0⟩ [0x14] with
        agenda := [.store (.word 1) 0x0154 0xDEADBEEF, .call (.process 0)] })).bind
      (fun t => (nextOf (step t)).map (fun u => (u.txt, u.agenda))) =
      some ([0xEF, 0xBE, 0x22, 0x22, 0x00], [.store .half 0x0156 0x0000DEAD]) := by decide

theorem test_byte_store_is_refused :
    stopOf (serve (.store .byte 0x0141 0x55) (block zeroRegs)) = some .unsupportedAccessSize := by decide

/-! ## Placing one operation as the next step -/

theorem test_place_command :
    outcome (step (State.reset.withFetchWord 8 0xFF)) =
      some ({ zeroRegs with joycnt := 0x0001 }, [0x00, 0x04, 0x00], 0, .cycles 0) := by decide

/-- RECV is placed with a payload of four zero bytes. -/
theorem test_place_recv :
    (nextOf (step (State.reset.withFetchWord 8 0x15))).map (fun t => (t.regs.joycnt, t.regs.joyRecvHi, t.rxq)) =
      some (0x0002, 0x0000, []) := by decide

theorem test_place_store :
    flags (step (State.reset.withFetchWord 32 0x00470140)) = some (0x0040, 0x0000, .half 0x0040) := by decide

/-! ## Witnesses: concrete states that meet the hypotheses of the statements -/

/-- Both state invariants hold of the small states. -/
theorem linked_inv (n c : Cycles) (rx : List Byte) (ck : List ClockRead) (a : List Event) :
    State.Inv { linked n c rx ck with agenda := a } :=
  ⟨⟨rfl, fun h => (nomatch h)⟩, fun h => (nomatch h), rfl, fun _ h => (nomatch h)⟩

theorem block_memOk (r : LinkRegs) : (block r).memOk := ⟨rfl, fun _ h => (nomatch h)⟩

theorem witness_CommandByteDecodesByTheOpcodeMap :
    ([(0x01 : Byte), 0x13, 0x16, 0xFE].all
      fun b => b != 0xFF && b != 0x00 && b != 0x14 && b != 0x15) = true := by decide

theorem witness_DecodeOfEncodeIsTheOperation :
    (Instr.wrOther 0xFFFF 0).wf = true ∧ (Instr.unrecognized 0xFE).wf = true ∧ (Instr.process 0).wf = true := by
  decide

theorem witness_StepKeepsTheInvariant :
    ∃ s t : State, s.Inv ∧ step s = .next t :=
  ⟨{ linked 0 0 [0xFF] [grant1000] with agenda := [.call (.process 0)] }, _, linked_inv _ _ _ _ _, rfl⟩

theorem witness_BudgetBoundsTheCountdown_onload :
    ∃ s t : State, exec .onload s = .next t := ⟨block zeroRegs, _, rfl⟩

theorem witness_BudgetBoundsTheCountdown_step :
    ∃ s t : State, s.budgetOk ∧ ¬ s.createsNext ∧ step s = .next t := by
  refine ⟨{ linked 600 600 [0xFF] [grant1000] with agenda := [.call (.process 600)] }, _, ?_, ?_, rfl⟩
  · unfold State.budgetOk
    decide
  · unfold State.createsNext
    decide

theorem witness_BudgetBoundsTheCountdown_process :
    ∃ (s t : State) (e : Cycles), s.budgetOk ∧ exec (.process e) s = .next t := by
  refine ⟨linked 0 0 [] [], _, 0, ?_, rfl⟩
  unfold State.budgetOk
  decide

theorem witness_StepRunsTheDecodedOperation :
    (∃ s : State, s.agenda = [.call .onload]) ∧ (∃ s : State, s.agenda = [.store .half 0x0140 0x0040]) ∧
      (∃ s : State, s.agenda = []) :=
  ⟨⟨{ State.reset with agenda := [.call .onload] }, rfl⟩,
   ⟨{ State.reset with agenda := [.store .half 0x0140 0x0040] }, rfl⟩, ⟨State.reset, rfl⟩⟩

/-- At the boundary NEC = e, with a budget still left and with none. -/
theorem witness_ProcessRunsTheDecodedCommand :
    (∃ t : State, exec (.process 600) (linked 600 1000 [0x14] [grant1000]) = .next t) ∧
      (linked 600 1000 [0x14] [grant1000]).nec.toInt ≤ (600 : Cycles).toInt ∧
      (linked 600 1000 [0x14] [grant1000]).commandByte = some 0x14 ∧
    (∃ t : State, exec (.process 0) (linked 0 0 [0x15] [grant1000]) = .next t) ∧
      (linked 0 0 [0x15] [grant1000]).nec.toInt ≤ (0 : Cycles).toInt ∧
      (linked 0 0 [0x15] [grant1000]).commandByte = some 0x15 :=
  ⟨⟨_, rfl⟩, by decide, by decide, ⟨_, rfl⟩, by decide, by decide⟩

/-- The hypothesis of every statement about an existing block. -/
theorem witness_created : (block zeroRegs).created = true ∧ (linked 0 0 [] []).created = true := by decide

theorem witness_ConnectSetsBothChannelsOrNeither :
    (block zeroRegs).created = true ∧ (block zeroRegs).dataChannel = .absent ∧
      (linked 0 0 [] []).created = true ∧ (linked 0 0 [] []).dataChannel = .connected ∧
      ConnectOutcome.failData ≠ .ok ∧ ConnectOutcome.failClock ≠ .ok := by decide

theorem witness_LifecycleLeavesTheRegisterFile :
    ∀ i ∈ [Instr.create, .connect .ok, .teardown, .destroy, .onload],
      i.isLifecycle = true ∧ (nextOf (exec i (linkedWith ⟨1, 2, 3, 4, 5, 6⟩ [0xFF]))).isSome = true := by decide

theorem witness_RefusalsHaveExactlyTheirCauses :
    stopOf (exec .teardown State.reset) = some .noBlock ∧
      stopOf (exec (.process 0) (block zeroRegs)) = some .notConnected ∧
      stopOf (exec (.wrOther 0x0141 0) (block zeroRegs)) = some .unsupportedAccessSize ∧
      (nextOf (exec .onload (block zeroRegs))).isSome = true := by decide

theorem witness_WrOtherStoresTheValueUnchanged :
    (block zeroRegs).created = true ∧ (block zeroRegs).memOk ∧
      ([(0x0150 : Offset), 0x013E, 0x0142, 0x015A, 0xFFFF].all
        fun offset => Instr.wf (.wrOther offset 0) && !cutsLink offset) = true :=
  ⟨rfl, block_memOk zeroRegs, by decide⟩

/-- The edges of each clause: the bytes before and after a link register and inside it. -/
theorem witness_UnsupportedStoresAreRefused :
    (block zeroRegs).created = true ∧
      ([(0x013F : Offset), 0x0141, 0x014F, 0x0159].all fun offset => cutsLink offset) = true ∧
      ([(0x0140 : Offset), 0x0141, 0x0150, 0x0159].all fun offset => touchesLink 1 offset) = true ∧
      ([(0x013D : Offset), 0x0141, 0x0152, 0x0156, 0x0159].all
        fun offset => touchesLink 4 offset && offset != 0x0154 && offset != 0x0150) = true := by decide

theorem witness_WordStoreIsTwoHalfWrites :
    (∃ s : State, s.created = true ∧ s.agenda = [.store (.word 1) 0x0154 0xDEADBEEF, .call .onload]) ∧
      (∃ s : State, s.created = true ∧
        s.agenda = [.store .half 0x0156 ((((0xDEADBEEF : BitVec 32) >>> 16).setWidth 16).setWidth 32)]) ∧
      (∃ s : State, s.created = true ∧ s.agenda = [.store (.word 0) 0x0150 0xDEADBEEF]) ∧
      (∃ s : State, s.created = true ∧
        s.agenda = [.store .half 0x0152 ((((0xDEADBEEF : BitVec 32) >>> 16).setWidth 16).setWidth 32)]) :=
  ⟨⟨{ block zeroRegs with agenda := [.store (.word 1) 0x0154 0xDEADBEEF, .call .onload] }, rfl, rfl⟩,
   ⟨{ block zeroRegs with agenda := [.store .half 0x0156 0x0000DEAD] }, rfl, rfl⟩,
   ⟨{ block zeroRegs with agenda := [.store (.word 0) 0x0150 0xDEADBEEF] }, rfl, rfl⟩,
   ⟨{ block zeroRegs with agenda := [.store .half 0x0152 0x0000DEAD] }, rfl, rfl⟩⟩

theorem witness_TransBetweenTheHalvesSendsATornWord :
    ∃ s t u : State, s.created = true ∧
      s.agenda = [.store (.word 1) 0x0154 0xDEADBEEF, .call (.process 0)] ∧
      step s = .next t ∧ step t = .next u ∧ s.nec.toInt ≤ (0 : Cycles).toInt ∧ s.commandByte = some 0x14 :=
  ⟨{ linked 0 0 [0x14] [] with agenda := [.store (.word 1) 0x0154 0xDEADBEEF, .call (.process 0)] }, _, _, rfl, rfl,
   rfl, rfl, by decide, by decide⟩

theorem witness_AckClearsTheNamedFlagsAndKeepsIen :
    ∃ s : State, s.created = true ∧ s.agenda = [ack 0x0002 s] ∧ s.regs.joycnt = 0x0047 :=
  ⟨{ block { zeroRegs with joycnt := 0x0047 } with
      agenda := [ack 0x0002 (block { zeroRegs with joycnt := 0x0047 })] }, rfl, rfl, rfl⟩

theorem witness_RecvOfACompletePayload :
    (linked 0 0 [0x78, 0x56, 0x34, 0x12] []).readFailsNow = false ∧
      (linked 0 0 [0x78, 0x56, 0x34, 0x12] []).rxq = [0x78, 0x56, 0x34, 0x12] := by decide

/-- Every length of payload that can arrive. -/
theorem witness_RecvFillsFromWhatArrived :
    ∀ n ∈ [0, 1, 2, 3, 4, 5],
      ((linked 0 0 (List.replicate n 0xAA) []).rxBytes 4).length = min n 4 := by decide

theorem witness_WordsCrossTheLinkInWireOrder :
    (∃ (s t : State) (w : BitVec 32), s.readFailsNow = false ∧ 0x15 :: s.rxq = recvBytes w ++ [0xFF] ∧
        exec .recv s = .next t) ∧
      (∃ s t : State, exec .trans s = .next t) :=
  ⟨⟨linked 0 0 [0x78, 0x56, 0x34, 0x12, 0xFF] [], _, 0x12345678, rfl, by decide, rfl⟩, ⟨block zeroRegs, _, rfl⟩⟩

/-- In range at the very edge, and one beyond it. -/
theorem witness_ProcessCompletesExactlyInRange :
    (linked 0 2147483646 [] []).created = true ∧ (linked 0 2147483646 [] []).linked = true ∧
      inRange ((0 : Cycles).toInt - (BitVec.ofInt 32 (-1)).toInt) ∧
      inRange ((2147483646 : Cycles).toInt - (BitVec.ofInt 32 (-1)).toInt) ∧
      ¬ inRange ((2147483647 : Cycles).toInt - (BitVec.ofInt 32 (-1)).toInt) ∧
      (linked 0 0 [] [grant1000]).nextGrant = 1000 := by
  unfold inRange
  decide

/-- NEC = 1 after the subtraction is still positive (V21). -/
theorem witness_ProcessNotDueOnlyCountsDown :
    (linked 600 1000 [0xFF] []).created = true ∧ (linked 600 1000 [0xFF] []).linked = true ∧
      0 < (linked 600 1000 [0xFF] []).nec.toInt - (599 : Cycles).toInt ∧
      inRange ((linked 600 1000 [0xFF] []).nec.toInt - (599 : Cycles).toInt) ∧
      inRange ((linked 600 1000 [0xFF] []).csr.toInt - (599 : Cycles).toInt) := by
  unfold inRange
  decide

/-- Due at NEC = e, with the poll (CSR = e) and without it (CSR = e + 1). -/
theorem witness_ProcessDueCounters :
    (∃ t : State, exec (.process 10) (linked 10 10 [0x00] [grant1000]) = .next t) ∧
      (linked 10 10 [0x00] [grant1000]).nec.toInt ≤ (10 : Cycles).toInt ∧
    (∃ t : State, exec (.process 10) (linked 10 11 [0x42] []) = .next t) ∧
      (linked 10 11 [0x42] []).nec.toInt ≤ (10 : Cycles).toInt :=
  ⟨⟨_, rfl⟩, by decide, ⟨_, rfl⟩, by decide⟩

/-- No byte waits, or the read fails. -/
theorem witness_ProcessWithoutAByteIsIdle :
    (∃ t : State, exec (.process 0) (linked 0 0 [] [.short]) = .next t) ∧
      (linked 0 0 [] [.short]).nec.toInt ≤ (0 : Cycles).toInt ∧ (linked 0 0 [] [.short]).commandByte = none ∧
      State.commandByte { linked 0 0 [0xFF] [] with readFails := [true] } = none :=
  ⟨⟨_, rfl⟩, by decide, by decide, by decide⟩

theorem witness_ProcessTakesAtMostOneCommandAndOneGrant :
    (∃ t : State, exec (.process 0) (linked 0 0 [0x15, 1, 2, 3, 4, 0xFF] [grant1000, .short]) = .next t ∧
        t.rxq = [0xFF] ∧ t.ckq = [.short]) ∧
      (∃ t : State, exec (.process 0) (linked 0 0 [0x00, 0x00, 0x00] [grant1000]) = .next t ∧
        (linked 0 0 [0x00, 0x00, 0x00] [grant1000]).commandByte ≠ some 0x15 ∧ t.rxq = [0x00, 0x00]) ∧
      (∃ t : State, exec (.process 0) (linked 0 0 [] [grant1000]) = .next t ∧
        (linked 0 0 [] [grant1000]).commandByte = none) ∧
      (∃ t : State, exec (.process 5) (linked 6 6 [0x15] [grant1000]) = .next t ∧
        (5 : Cycles).toInt < (linked 6 6 [0x15] [grant1000]).nec.toInt ∧ t.rxq = [0x15] ∧ t.ckq = [grant1000]) :=
  ⟨⟨_, rfl, by decide, by decide⟩, ⟨_, rfl, by decide, by decide⟩, ⟨_, rfl, by decide⟩,
    ⟨_, rfl, by decide, by decide, by decide⟩⟩

theorem witness_FirstProcessAfterOnloadPollsAndReads :
    ∃ s t u : State, exec .onload s = .next t ∧ 0 ≤ (0 : Cycles).toInt ∧ exec (.process 0) t = .next u ∧
      s.commandByte = some 0xFF :=
  ⟨linked 5 7 [0xFF] [.nothing], _, _, rfl, by decide, rfl, by decide⟩

theorem witness_OnlyThreeCommandsRaiseAndOnlyWithIen :
    (∃ s t : State, Instr.recv ≠ .create ∧ (∀ e : Cycles, Instr.recv ≠ .process e) ∧ exec .recv s = .next t) ∧
      (∃ s t : State, exec (.process 0) s = .next t ∧ s.commandByte = some 0x14 ∧
        s.regs.joycnt.getLsbD 6 = true) :=
  ⟨⟨linked 0 0 [] [], _, by decide, fun _ h => (nomatch h), rfl⟩,
   ⟨linkedWith { zeroRegs with joycnt := 0x0040 } [0x14], _, rfl, by decide, by decide⟩⟩

theorem witness_TracesAreNeverReadBack :
    ∃ (s : State) (r : Refusal), exec (.process 0) s = .refused r := ⟨block zeroRegs, _, rfl⟩

/-- The hypotheses of the statements about any completed operation: TracesOnlyGrow, TracesAreNeverReadBack,
UndocumentedBitsNeverChange, EachKindOfOperationKeepsTheRest. -/
theorem witness_any_operation :
    ∀ i ∈ [Instr.reset, .wrJoycnt 0xFFFF, .wrOther 0x0150 1, .teardown, .process 0],
      i ≠ .create ∧ i.wf = true ∧ (nextOf (exec i (linkedWith ⟨0xFFB8, 0xFFC5, 3, 4, 5, 6⟩ [0xFF]))).isSome = true := by
  decide

theorem witness_RxaStaysUntilTheConsoleResets :
    (∃ s t : State, exec (.wrJoystat 0) s = .next t ∧ s.regs.joystat.getLsbD 1 = true) ∧
      (∃ s t : State, s.agenda.head? ≠ some .consoleReset ∧ step s = .next t ∧
        s.regs.joystat.getLsbD 1 = true) :=
  ⟨⟨block { zeroRegs with joystat := 0x0002 }, _, rfl, by decide⟩,
   ⟨{ block { zeroRegs with joystat := 0x0002 } with agenda := [.store .half 0x0158 0] }, _, by decide, rfl,
    by decide⟩⟩

theorem witness_CommandsTestIenAlone :
    Instr.trans.isCommand = true ∧ (0x0047 : Half).getLsbD 6 = (0x0040 : Half).getLsbD 6 ∧
      ∃ s t : State, exec .trans s = .next t ∧ s.regs.joycnt = 0x0040 :=
  ⟨by decide, by decide, ⟨block { zeroRegs with joycnt := 0x0040 }, _, rfl, by decide⟩⟩

/-- Each clause: an event flag set, an event flag cleared, IEN changed, GPF changed, RXA set, TXP set, TXP cleared. -/
theorem witness_EachFlagHasItsSide :
    (∃ s t : State, exec .trans s = .next t ∧ s.regs.joycnt.getLsbD 2 = false ∧ t.regs.joycnt.getLsbD 2 = true) ∧
      (∃ s t : State, exec (.wrJoycnt 1) s = .next t ∧ s.regs.joycnt.getLsbD 0 = true ∧
        t.regs.joycnt.getLsbD 0 = false) ∧
      (∃ s t : State, exec (.wrJoycnt 0x0040) s = .next t ∧
        t.regs.joycnt.getLsbD 6 ≠ s.regs.joycnt.getLsbD 6) ∧
      (∃ s t : State, exec (.wrJoystat 0x0020) s = .next t ∧
        t.regs.joystat.getLsbD 5 ≠ s.regs.joystat.getLsbD 5) ∧
      (∃ s t : State, exec .recv s = .next t ∧ s.regs.joystat.getLsbD 1 = false ∧
        t.regs.joystat.getLsbD 1 = true) ∧
      (∃ s t : State, exec (.wrJoyTransHi 0) s = .next t ∧ s.regs.joystat.getLsbD 3 = false ∧
        t.regs.joystat.getLsbD 3 = true) ∧
      (∃ s t : State, exec .trans s = .next t ∧ s.regs.joystat.getLsbD 3 = true ∧
        t.regs.joystat.getLsbD 3 = false) :=
  ⟨⟨block zeroRegs, _, rfl, by decide, by decide⟩,
   ⟨block { zeroRegs with joycnt := 1 }, _, rfl, by decide, by decide⟩,
   ⟨block zeroRegs, _, rfl, by decide⟩,
   ⟨block zeroRegs, _, rfl, by decide⟩,
   ⟨linked 0 0 [1, 2, 3, 4] [], _, rfl, by decide, by decide⟩,
   ⟨block zeroRegs, _, rfl, by decide, by decide⟩,
   ⟨block { zeroRegs with joystat := 8 }, _, rfl, by decide, by decide⟩⟩

theorem witness_UnwrittenRegistersAreKept :
    ∃ s t : State, exec .recv s = .next t ∧ LinkReg.transLo ∉ writtenRegs .recv :=
  ⟨linked 0 0 [] [], _, rfl, by decide⟩

/-- The bytes just outside what RECV and WR_OTHER store to. -/
theorem witness_UnstoredFileBytesAreKept :
    (∃ s t : State, exec .recv s = .next t ∧ (0x0154 : Offset) ∉ storedBytes .recv ∧
        (0x013F : Offset) ∉ storedBytes .recv) ∧
      (∃ s t : State, exec (.wrOther 0xFFFF 1) s = .next t ∧ (0x0001 : Offset) ∉ storedBytes (.wrOther 0xFFFF 1)) :=
  ⟨⟨linked 0 0 [] [], _, rfl, by decide, by decide⟩, ⟨block zeroRegs, _, rfl, by decide⟩⟩

/-- One operation of each kind. -/
theorem witness_EachKindOfOperationKeepsTheRest :
    (Instr.wrJoystat 1).isWrite = true ∧ (nextOf (exec (.wrJoystat 1) (block zeroRegs))).isSome = true ∧
      Instr.poll.isCommand = true ∧ (nextOf (exec .poll (block zeroRegs))).isSome = true ∧
      Instr.destroy.isLifecycle = true ∧ (nextOf (exec .destroy (block zeroRegs))).isSome = true ∧
      (nextOf (exec (.process 0) (linked 0 0 [] []))).isSome = true := by decide

theorem witness_RegisterWritesIgnoreTheLink :
    (Instr.wrJoyTransLo 1).isWrite = true ∧
      (nextOf (exec (.wrJoyTransLo 1) (block zeroRegs))).isSome = true := by decide

theorem witness_PeerItemsJoinTheEndOfTheirQueue :
    (linked 0 0 [] []).dataChannel = .connected ∧ (linked 0 0 [] []).clockChannel = .connected ∧
      (block zeroRegs).dataChannel = .absent ∧ (block zeroRegs).clockChannel = .absent := by decide

end Sys2Proof.Tests
end

/-! PROOF. `NEC <= CSR` (spec/10_state.md rule R27): which operations leave the counters alone, what a PROCESS makes of
them, and from both that every step but a CREATE keeps the order. -/

namespace Sys2Proof.Machine

/-! ## Operations that leave the counters alone -/

@[simp] theorem State.memWrite_nec (s : State) (a : Offset) (v : Half) : (s.memWrite a v).nec = s.nec := by
  unfold State.memWrite
  split <;> rfl

@[simp] theorem State.memWrite_csr (s : State) (a : Offset) (v : Half) : (s.memWrite a v).csr = s.csr := by
  unfold State.memWrite
  split <;> rfl

@[simp] theorem markTransmitPending_nec (s : State) : (markTransmitPending s).nec = s.nec := rfl
@[simp] theorem markTransmitPending_csr (s : State) : (markTransmitPending s).csr = s.csr := rfl

theorem command_keeps_counters {i : Instr} {s t : State} (hi : i.isCommand = true) (h : exec i s = .next t) :
    t.nec = s.nec ∧ t.csr = s.csr := by
  rcases command_cases hi h with ⟨-, rfl⟩ | ⟨-, rfl⟩ | ⟨-, rfl⟩ | ⟨-, rfl⟩ | ⟨b, -, rfl⟩ <;>
    simp [resetCommand_state, pollCommand_state, recvCommand_state, transCommand_state]

theorem write_keeps_counters {i : Instr} {s t : State} (hi : i.isWrite = true) (h : exec i s = .next t) :
    t.nec = s.nec ∧ t.csr = s.csr := by
  obtain ⟨-, hcases⟩ := write_cases hi h
  rcases hcases with ⟨v, -, rfl⟩ | ⟨v, -, rfl⟩ | ⟨v, -, rfl⟩ | ⟨v, -, rfl⟩ | ⟨a, v, -, -, rfl⟩ <;> simp

@[simp] theorem closeChannels_nec (s : State) : (closeChannels s).nec = s.nec := rfl
@[simp] theorem closeChannels_csr (s : State) : (closeChannels s).csr = s.csr := rfl

theorem connectWith_counters (o : ConnectOutcome) (s : State) :
    (connectWith o s).nec = s.nec ∧ (connectWith o s).csr = s.csr := by
  rcases connectWith_cases o s with ⟨-, h⟩ | ⟨-, -, h⟩ | ⟨-, -, -, h⟩ <;> simp [h]

/-! ## Operations that set the counters -/

/-- ONLOAD makes both counters 0 (spec/40_link_lifecycle.md rule R84). -/
theorem exec_onload_counters {s t : State} (h : exec .onload s = .next t) : t.nec = 0 ∧ t.csr = 0 := by
  obtain ⟨-, h⟩ := (whenCreated_eq_next _ _ _).mp h
  cases h
  exact ⟨rfl, rfl⟩

/-- A completed PROCESS returns the NEC it leaves (spec/42_sequencer.md rule R109). -/
theorem process_returns_nec {e : Cycles} {s t : State} (h : exec (.process e) s = .next t) :
    t.result = .cycles t.nec := by
  obtain ⟨-, -, ⟨-, n, c, -, -, rfl⟩ | ⟨-, n, c, -, ⟨-, -, rfl⟩ | ⟨b, -, -, rfl⟩⟩⟩ := process_cases h <;> rfl

/-! ## `NEC <= CSR` -/

theorem State.budgetOk_of_counters {s t : State} (hk : t.nec = s.nec ∧ t.csr = s.csr) (hs : s.budgetOk) :
    t.budgetOk := by
  obtain ⟨hn, hc⟩ := hk
  unfold State.budgetOk
  rw [hn, hc]
  exact hs

theorem exec_onload_budgetOk {s t : State} (h : exec .onload s = .next t) : t.budgetOk := by
  obtain ⟨hn, hc⟩ := exec_onload_counters h
  unfold State.budgetOk
  rw [hn, hc]

/-- A PROCESS that is not due subtracts the same number from both counters, and one that is due ends with the clamp of
spec/42_sequencer.md rule R108. -/
theorem process_keeps_budgetOk {e : Cycles} {s t : State} (hs : s.budgetOk) (h : exec (.process e) s = .next t) :
    t.budgetOk := by
  unfold State.budgetOk at hs ⊢
  obtain ⟨-, -, ⟨-, n, c, hn, hc, rfl⟩ | ⟨-, n, c, -, ⟨-, hn, rfl⟩ | ⟨b, -, hn, rfl⟩⟩⟩ := process_cases h
  · show n.toInt ≤ c.toInt
    omega
  all_goals
    show n.toInt ≤ c.toInt
    exact hn ▸ min_le_right _ _

/-- Of the lifecycle operations only CREATE, whose counters are free values, may break the order. -/
theorem lifecycle_keeps_budgetOk {i : Instr} {s t : State} (hi : i.isLifecycle = true) (hne : i ≠ .create)
    (hs : s.budgetOk) (h : exec i s = .next t) : t.budgetOk := by
  rcases lifecycle_cases hi h with ⟨rfl, -⟩ | ⟨-, ⟨o, -, rfl⟩ | ⟨-, rfl⟩ | ⟨-, rfl⟩ | ⟨rfl, -⟩⟩
  · exact absurd rfl hne
  · exact State.budgetOk_of_counters (connectWith_counters o s) hs
  · exact State.budgetOk_of_counters (by simp) hs
  · exact State.budgetOk_of_counters (by simp) hs
  · exact exec_onload_budgetOk h

theorem exec_keeps_budgetOk {i : Instr} {s t : State} (hne : i ≠ .create) (hs : s.budgetOk)
    (h : exec i s = .next t) : t.budgetOk := by
  rcases kind_cases i with hi | hi | hi | ⟨e, rfl⟩
  · exact State.budgetOk_of_counters (command_keeps_counters hi h) hs
  · exact State.budgetOk_of_counters (write_keeps_counters hi h) hs
  · exact lifecycle_keeps_budgetOk hi hne hs h
  · exact process_keeps_budgetOk hs h

/-! ## Events -/

theorem decodeCall_eq_create (op : HostCall) : decodeCall op = .create ↔ op = .create := by
  cases op <;> simp [decodeCall]

theorem decodeWrite_isWrite (a : Offset) (v : Half) : (decodeWrite a v).isWrite = true := by
  unfold decodeWrite
  split_ifs <;> rfl

/-- A completed CPU-side store ran a register write, with the high half of a split store perhaps put on the agenda, or
wrote one byte outside the six registers. -/
theorem storeAny_cases {size : AccessSize} {a : Offset} {v : BitVec 32} {s t : State}
    (h : storeAny size a v s = .next t) :
    (∃ (i : Instr) (coming : List Event), i.isWrite = true ∧ exec i (s.setAgenda coming) = .next t) ∨
      (∃ b : Byte, touchesLink 1 a = false ∧ t = s.setFileByte a b) := by
  unfold storeAny decodeStore at h
  cases size with
  | half => exact .inl ⟨_, s.agenda, decodeWrite_isWrite _ _, h⟩
  | word gap =>
    cases hsplit : splits a with
    | true =>
      simp only [hsplit, if_true] at h
      exact .inl ⟨_, _, decodeWrite_isWrite _ _, h⟩
    | false =>
      simp [hsplit] at h
  | byte =>
    cases htouch : touchesLink 1 a with
    | true =>
      simp [htouch] at h
    | false =>
      simp only [htouch, Bool.false_eq_true, if_false] at h
      cases h
      exact .inr ⟨_, rfl, rfl⟩

theorem storeAny_keeps_counters {size : AccessSize} {a : Offset} {v : BitVec 32} {s t : State}
    (h : storeAny size a v s = .next t) : t.nec = s.nec ∧ t.csr = s.csr := by
  rcases storeAny_cases h with ⟨i, coming, hi, hexec⟩ | ⟨b, -, rfl⟩
  · simpa using write_keeps_counters hi hexec
  · exact ⟨rfl, rfl⟩

/-- A completed read returns a value and changes nothing else (spec/20_memory.md rule R44). -/
theorem loadHalf_eq_next {a : Offset} {s t : State} (h : loadHalf a s = .next t) :
    cutsLink a = false ∧ t = s.returning (.half (s.memRead a)) := by
  unfold loadHalf at h
  split at h
  case isTrue => cases h
  case isFalse hcut =>
    cases h
    exact ⟨by simpa using hcut, rfl⟩

@[simp] theorem arriveBytes_nec (bs : List Byte) (s : State) : (arriveBytes bs s).nec = s.nec := by
  unfold arriveBytes
  split <;> rfl

@[simp] theorem arriveBytes_csr (bs : List Byte) (s : State) : (arriveBytes bs s).csr = s.csr := by
  unfold arriveBytes
  split <;> rfl

@[simp] theorem arriveClock_nec (r : ClockRead) (s : State) : (arriveClock r s).nec = s.nec := by
  unfold arriveClock
  split <;> rfl

@[simp] theorem arriveClock_csr (r : ClockRead) (s : State) : (arriveClock r s).csr = s.csr := by
  unfold arriveClock
  split <;> rfl

@[simp] theorem arriveDecision_nec (fails : Bool) (s : State) : (arriveDecision fails s).nec = s.nec := rfl
@[simp] theorem arriveDecision_csr (fails : Bool) (s : State) : (arriveDecision fails s).csr = s.csr := rfl
@[simp] theorem consoleReset_nec (s : State) : (consoleReset s).nec = s.nec := rfl
@[simp] theorem consoleReset_csr (s : State) : (consoleReset s).csr = s.csr := rfl

theorem serve_keeps_budgetOk {ev : Event} {s t : State} (hne : ev ≠ .call .create) (hs : s.budgetOk)
    (h : serve ev s = .next t) : t.budgetOk := by
  cases ev with
  | call op =>
    have hop : decodeCall op ≠ .create := fun hc => hne (congrArg Event.call ((decodeCall_eq_create op).mp hc))
    exact exec_keeps_budgetOk hop hs h
  | store size a v => exact State.budgetOk_of_counters (storeAny_keeps_counters h) hs
  | load a =>
    obtain ⟨-, rfl⟩ := loadHalf_eq_next h
    exact hs
  | peerBytes bs =>
    cases h
    exact State.budgetOk_of_counters (by simp) hs
  | peerClock r =>
    cases h
    exact State.budgetOk_of_counters (by simp) hs
  | readDecision fails =>
    cases h
    exact hs
  | consoleReset =>
    cases h
    exact hs

theorem step_keeps_budgetOk {s t : State} (hs : s.budgetOk) (hne : ¬ s.createsNext) (h : step s = .next t) :
    t.budgetOk := by
  cases ha : s.agenda with
  | nil =>
    rw [step_nil ha] at h
    cases h
    exact hs
  | cons ev rest =>
    rw [step_cons ha] at h
    have hev : ev ≠ .call .create := fun e => hne (by simp [State.createsNext, ha, e])
    exact serve_keeps_budgetOk (s := s.setAgenda rest) hev hs h

end Sys2Proof.Machine

namespace Sys2Proof.Proofs

open Sys2Proof.Machine

/-- Settles O9: ONLOAD makes the counters equal, every operation but CREATE keeps their order, and PROCESS returns the
NEC it leaves. -/
theorem budgetBoundsTheCountdown : Obligations.BudgetBoundsTheCountdown := by
  unfold Obligations.BudgetBoundsTheCountdown
  refine ⟨fun s t h => exec_onload_budgetOk h, fun s t hs hne h => step_keeps_budgetOk hs hne h, ?_⟩
  intro s t e hs h
  exact ⟨t.nec, process_returns_nec h, process_keeps_budgetOk hs h⟩

end Sys2Proof.Proofs

/-! PROOF. The register writes of spec/41_register_write.md on an existing block: which bits of the old and of the written
value WR_JOYSTAT stores, and the state each of the three writes leaves. -/

namespace Sys2Proof.Machine

/-! ## The value WR_JOYSTAT stores -/

theorem gpfMask_getLsbD {k : Nat} (hk : k < 16) : gpfMask.getLsbD k = decide (k = 4 ∨ k = 5) := by
  revert k
  decide

/-- A bit of the stored value comes from the written value where the mask GPF is 1, else from the old value
(spec/41_register_write.md rule R91). -/
theorem joystatStored_getLsbD (old value : Half) {k : Nat} (hk : k < 16) :
    (joystatStored old value).getLsbD k = if k = 4 ∨ k = 5 then value.getLsbD k else old.getLsbD k := by
  have hreg : k < Config.params.regw := hk
  rw [joystatStored, BitVec.getLsbD_or, BitVec.getLsbD_and, BitVec.getLsbD_and, BitVec.getLsbD_not,
    gpfMask_getLsbD hk]
  by_cases hgpf : k = 4 ∨ k = 5
  · simp [hgpf]
  · simp [hgpf, hreg]

/-! ## The state a write leaves -/

theorem exec_wrJoystat {s : State} (hc : s.created = true) (value : Half) :
    exec (.wrJoystat value) s = .next (s.commit .joystat (joystatStored s.regs.joystat value)) :=
  whenCreated_of_created hc _

theorem exec_wrJoyTransLo {s : State} (hc : s.created = true) (value : Half) :
    exec (.wrJoyTransLo value) s = .next ((markTransmitPending s).commit .transLo value) :=
  whenCreated_of_created hc _

theorem exec_wrJoyTransHi {s : State} (hc : s.created = true) (value : Half) :
    exec (.wrJoyTransHi value) s = .next ((markTransmitPending s).commit .transHi value) :=
  whenCreated_of_created hc _

theorem State.commit_state (s : State) (n : LinkReg) (stored : Half) :
    s.commit n stored = { s with regs := LinkRegs.set s.regs n stored, result := .half stored } := rfl

theorem markTransmitPending_state (s : State) :
    markTransmitPending s = { s with regs := { s.regs with joystat := s.regs.joystat ||| 0x0008 } } := rfl

end Sys2Proof.Machine

namespace Sys2Proof.Proofs

open Sys2Proof.Machine

/-- Settles O20: the value stored is `joystatStored`, whose bits are the written ones under the mask GPF only. -/
theorem wrJoystatStoresBitByBit : Obligations.WrJoystatStoresBitByBit := by
  unfold Obligations.WrJoystatStoresBitByBit
  intro s value hc
  refine ⟨joystatStored s.regs.joystat value, ?_, fun k hk => joystatStored_getLsbD s.regs.joystat value hk⟩
  rw [exec_wrJoystat hc, State.commit_state, LinkRegs.set_joystat]

/-- Settles O21: TXP is set first, then the value is committed to the half written. -/
theorem wrJoyTransSetsTransmitPending : Obligations.WrJoyTransSetsTransmitPending := by
  unfold Obligations.WrJoyTransSetsTransmitPending
  intro s value hc
  constructor
  · rw [exec_wrJoyTransLo hc, markTransmitPending_state, State.commit_state, LinkRegs.set_transLo]
  · rw [exec_wrJoyTransHi hc, markTransmitPending_state, State.commit_state, LinkRegs.set_transHi]

end Sys2Proof.Proofs

/-! PROOF. A command byte that names no command (spec/43_commands.md rule R126): the state it leaves. -/

namespace Sys2Proof.Machine

/-- UNRECOGNIZED as an operation of its own is the dispatched command, for every byte. -/
theorem exec_unrecognized (b : Byte) (s : State) :
    exec (.unrecognized b) s =
      .next ((unrecognizedCommand s).state.returning (.cycles (unrecognizedCommand s).cost)) := rfl

end Sys2Proof.Machine

namespace Sys2Proof.Proofs

open Sys2Proof.Machine

/-- Settles O33: the dispatched command leaves the state as it was, and its cost, the base framing alone, is returned. -/
theorem unrecognizedOnlyCosts : Obligations.UnrecognizedOnlyCosts := by
  unfold Obligations.UnrecognizedOnlyCosts
  intro s b
  rw [exec_unrecognized, unrecognizedCommand_state, unrecognizedCommand_cost]
  rfl

end Sys2Proof.Proofs

/-! PROOF. The lifecycle operations and the register file (spec/70_reset_and_hazards.md rule R164): each leaves the six
registers and the rest of the file alone. -/

namespace Sys2Proof.Machine

@[simp] theorem closeChannels_regs (s : State) : (closeChannels s).regs = s.regs := rfl
@[simp] theorem closeChannels_mem (s : State) : (closeChannels s).mem = s.mem := rfl

@[simp] theorem newBlock_regs (s : State) : (newBlock s).regs = s.regs := rfl
@[simp] theorem newBlock_mem (s : State) : (newBlock s).mem = s.mem := rfl

theorem connectWith_keeps_file (o : ConnectOutcome) (s : State) :
    (connectWith o s).regs = s.regs ∧ (connectWith o s).mem = s.mem := by
  rcases connectWith_cases o s with ⟨-, h⟩ | ⟨-, -, h⟩ | ⟨-, -, -, h⟩ <;> simp [h]

/-- A completed lifecycle operation keeps both parts of the register file, from which all its bytes are read. -/
theorem lifecycle_keeps_file {i : Instr} {s t : State} (hi : i.isLifecycle = true) (h : exec i s = .next t) :
    t.regs = s.regs ∧ t.mem = s.mem := by
  rcases lifecycle_cases hi h with ⟨-, rfl⟩ | ⟨-, ⟨o, -, rfl⟩ | ⟨-, rfl⟩ | ⟨-, rfl⟩ | ⟨-, rfl⟩⟩
  · simp
  · exact connectWith_keeps_file o s
  · simp
  · simp
  · simp

end Sys2Proof.Machine

namespace Sys2Proof.Proofs

open Sys2Proof.Machine

/-- Settles O17: the six registers and the rest of the file are kept, and every byte is read from one of the two. -/
theorem lifecycleLeavesTheRegisterFile : Obligations.LifecycleLeavesTheRegisterFile := by
  unfold Obligations.LifecycleLeavesTheRegisterFile
  intro i s t hi h
  obtain ⟨hregs, hmem⟩ := lifecycle_keeps_file hi h
  exact ⟨hregs, fileByte_congr hregs hmem⟩

end Sys2Proof.Proofs

/-! PROOF. The three coded forms of an operation (spec/30_encoding.md sections 2, 6, 8): the decoder and the encoder
undo each other on each of them. -/

namespace Sys2Proof.Machine

/-! ## Format C -/

theorem unrecognizedByte_iff (b : Byte) :
    unrecognizedByte b = true ↔ b ≠ 0xFF ∧ b ≠ 0x00 ∧ b ≠ 0x15 ∧ b ≠ 0x14 := by
  simp [unrecognizedByte, and_assoc]

theorem decodeCommand_unrecognized {b : Byte} (h : unrecognizedByte b = true) :
    decodeCommand b = .unrecognized b := by
  obtain ⟨hreset, hpoll, hrecv, htrans⟩ := (unrecognizedByte_iff b).mp h
  simp only [decodeCommand, hreset, hpoll, hrecv, htrans, if_false]

theorem encode_decodeCommand (b : Byte) :
    encode (decodeCommand b) = .command b ∧ (decodeCommand b).wf = true := by
  unfold decodeCommand
  split_ifs with hreset hpoll htrans hrecv
  · exact ⟨congrArg Coded.command hreset.symm, rfl⟩
  · exact ⟨congrArg Coded.command hpoll.symm, rfl⟩
  · exact ⟨congrArg Coded.command htrans.symm, rfl⟩
  · exact ⟨congrArg Coded.command hrecv.symm, rfl⟩
  · exact ⟨rfl, (unrecognizedByte_iff b).mpr ⟨hreset, hpoll, hrecv, htrans⟩⟩

/-! ## Format W -/

theorem notIntercepted_iff (a : Offset) :
    notIntercepted a = true ↔
      a ≠ addrOf .joycnt ∧ a ≠ addrOf .joystat ∧ a ≠ addrOf .transLo ∧ a ≠ addrOf .transHi := by
  simp [notIntercepted, addrOf, and_assoc]

theorem decodeWrite_notIntercepted {a : Offset} (h : notIntercepted a = true) (v : Half) :
    decodeWrite a v = .wrOther a v := by
  obtain ⟨hcnt, hstat, hlo, hhi⟩ := (notIntercepted_iff a).mp h
  simp [decodeWrite, hcnt, hstat, hlo, hhi]

theorem encode_decodeWrite (a : Offset) (v : Half) :
    encode (decodeWrite a v) = .write a v ∧ (decodeWrite a v).wf = true := by
  unfold decodeWrite
  split_ifs with hcnt hstat hlo hhi
  · exact ⟨congrArg (Coded.write · v) hcnt.symm, rfl⟩
  · exact ⟨congrArg (Coded.write · v) hstat.symm, rfl⟩
  · exact ⟨congrArg (Coded.write · v) hlo.symm, rfl⟩
  · exact ⟨congrArg (Coded.write · v) hhi.symm, rfl⟩
  · exact ⟨rfl, (notIntercepted_iff a).mpr ⟨hcnt, hstat, hlo, hhi⟩⟩

/-! ## Format H -/

theorem encode_decodeCall (op : HostCall) : encode (decodeCall op) = .call op ∧ (decodeCall op).wf = true := by
  cases op <;> exact ⟨rfl, rfl⟩

/-! ## Every form -/

/-- Only an unrecognized byte and an offset that is not intercepted need well-formedness to be read back. -/
theorem decode_encode {i : Instr} (hwf : i.wf = true) : decode (encode i) = i := by
  cases i with
  | unrecognized b => exact decodeCommand_unrecognized hwf
  | wrOther a v => exact decodeWrite_notIntercepted hwf v
  | _ => rfl

theorem encode_decode (c : Coded) : encode (decode c) = c ∧ (decode c).wf = true := by
  cases c with
  | command b => exact encode_decodeCommand b
  | write a v => exact encode_decodeWrite a v
  | call op => exact encode_decodeCall op

/-- A coded form decodes to a well-formed operation exactly where it is that operation's encoding. -/
theorem decode_eq_iff {i : Instr} (hwf : i.wf = true) (c : Coded) : decode c = i ↔ encode i = c := by
  constructor
  · rintro rfl
    exact (encode_decode c).1
  · rintro rfl
    exact decode_encode hwf

theorem decodeCommand_eq_iff {i : Instr} (hwf : i.wf = true) (b : Byte) :
    decodeCommand b = i ↔ encode i = .command b :=
  decode_eq_iff hwf (.command b)

end Sys2Proof.Machine

namespace Sys2Proof.Proofs

open Sys2Proof.Machine

/-- Settles O4: every coded form keeps all its operands, `decode_encode`. -/
theorem decodeOfEncodeIsTheOperation : Obligations.DecodeOfEncodeIsTheOperation := by
  unfold Obligations.DecodeOfEncodeIsTheOperation
  exact fun i hwf => decode_encode hwf

/-- Settles O5: `encode_decode`, one case per coded form. -/
theorem encodeOfDecodeIsTheCodedForm : Obligations.EncodeOfDecodeIsTheCodedForm := by
  unfold Obligations.EncodeOfDecodeIsTheCodedForm
  exact fun c => encode_decode c

/-- Settles O1: the four recognized bytes decode by computation, every other byte is unrecognized. -/
theorem commandByteDecodesByTheOpcodeMap : Obligations.CommandByteDecodesByTheOpcodeMap := by
  unfold Obligations.CommandByteDecodesByTheOpcodeMap
  refine ⟨rfl, rfl, rfl, rfl, fun b hreset hpoll htrans hrecv => ?_⟩
  exact decodeCommand_unrecognized ((unrecognizedByte_iff b).mpr ⟨hreset, hpoll, hrecv, htrans⟩)

/-- Settles O2, by the 20 rows at each of the 256 bytes. -/
theorem tableRowsPartitionTheCommandBytes : Obligations.TableRowsPartitionTheCommandBytes := by
  unfold Obligations.TableRowsPartitionTheCommandBytes
  intro b
  have every : ∀ n : Fin 256,
      (commandRows.filter (fun row => row.hits (BitVec.ofFin n))).map (fun row => row.name) =
        [(decodeCommand (BitVec.ofFin n)).mnemonic] := by decide +kernel
  exact every b.toFin

/-- Settles O3: each word is split by the host's numbering and decoded by computation. -/
theorem writtenOutWordsDecode : Obligations.WrittenOutWordsDecode := by
  unfold Obligations.WrittenOutWordsDecode
  exact ⟨rfl, rfl, rfl, rfl, rfl, rfl, rfl⟩

end Sys2Proof.Proofs

/-! PROOF. What each kind of operation leaves of the state (spec/70_reset_and_hazards.md rule R182). A PROCESS is taken
apart once: it counts down, it finds no byte, or it runs the command its byte decodes to, so what holds of every command
carries over to it. -/

namespace Sys2Proof.Machine

/-! ## Commands -/

theorem command_frame {i : Instr} {s t : State} (hi : i.isCommand = true) (h : exec i s = .next t) :
    t = { s with
          regs := t.regs
          rxq := t.rxq
          readFails := t.readFails
          txt := t.txt
          irqt := t.irqt
          draws := t.draws
          result := t.result } := by
  rcases command_cases hi h with ⟨-, rfl⟩ | ⟨-, rfl⟩ | ⟨-, rfl⟩ | ⟨-, rfl⟩ | ⟨b, -, rfl⟩
  · rw [resetCommand_state]
    rfl
  · rw [pollCommand_state]
    rfl
  · rw [recvCommand_state]
    rfl
  · rw [transCommand_state]
    rfl
  · rfl

theorem command_keeps_reg {i : Instr} {s t : State} {r : LinkReg} (hi : i.isCommand = true) (h : exec i s = .next t)
    (hr : r ∉ writtenRegs i) : t.reg r = s.reg r := by
  rcases command_cases hi h with ⟨rfl, rfl⟩ | ⟨rfl, rfl⟩ | ⟨rfl, rfl⟩ | ⟨rfl, rfl⟩ | ⟨b, rfl, rfl⟩
  · have hcnt : .joycnt ≠ r := by simpa [writtenRegs, eq_comm] using hr
    rw [resetCommand_state]
    exact LinkRegs.get_set_ne s.regs _ hcnt
  · rw [pollCommand_state]
    rfl
  · obtain ⟨hcnt, hstat, hlo, hhi⟩ : .joycnt ≠ r ∧ .joystat ≠ r ∧ .recvLo ≠ r ∧ .recvHi ≠ r := by
      simpa [writtenRegs, eq_comm] using hr
    rw [recvCommand_state]
    cases r <;> trivial
  · obtain ⟨hcnt, hstat⟩ : .joycnt ≠ r ∧ .joystat ≠ r := by simpa [writtenRegs, eq_comm] using hr
    rw [transCommand_state]
    exact (LinkRegs.get_set_ne _ _ hstat).trans (LinkRegs.get_set_ne _ _ hcnt)
  · rfl

/-- A command takes bytes from the front of RXQ alone: RECV at most four, every other command none. -/
theorem command_takes_rxq {i : Instr} {s t : State} (hi : i.isCommand = true) (h : exec i s = .next t) :
    ∃ k : Nat, k ≤ 4 ∧ (i ≠ .recv → k = 0) ∧ t.rxq = s.rxq.drop k := by
  rcases command_cases hi h with ⟨-, rfl⟩ | ⟨-, rfl⟩ | ⟨rfl, rfl⟩ | ⟨-, rfl⟩ | ⟨b, -, rfl⟩
  case inr.inr.inl =>
    exact ⟨(s.rxBytes 4).length, s.rxBytes_length_le 4, fun hne => (hne rfl).elim, by simp [recvCommand_state]⟩
  all_goals
    exact ⟨0, by omega, fun _ => rfl, by simp [resetCommand_state, pollCommand_state, transCommand_state]⟩

theorem decodeCommand_isCommand (b : Byte) : (decodeCommand b).isCommand = true := by
  unfold decodeCommand
  split_ifs <;> rfl

theorem decodeCommand_eq_recv (b : Byte) : decodeCommand b = .recv ↔ b = 0x15 := by
  rw [decodeCommand_eq_iff rfl]
  simp [encode, eq_comm]

/-! ## Register writes -/

theorem memWrite_frame (s : State) (a : Offset) (v : Half) :
    s.memWrite a v = { s with regs := (s.memWrite a v).regs, mem := (s.memWrite a v).mem } := by
  unfold State.memWrite
  split <;> rfl

theorem write_frame {i : Instr} {s t : State} (hi : i.isWrite = true) (h : exec i s = .next t) :
    t = { s with regs := t.regs, mem := t.mem, result := t.result } := by
  obtain ⟨-, ⟨v, -, rfl⟩ | ⟨v, -, rfl⟩ | ⟨v, -, rfl⟩ | ⟨v, -, rfl⟩ | ⟨a, v, -, -, rfl⟩⟩ := write_cases hi h
  case inr.inr.inr.inr =>
    rw [memWrite_frame]
    rfl
  all_goals rfl

theorem memWrite_keeps_reg {s : State} {a : Offset} {r : LinkReg} (v : Half) (hr : r ∉ (regAt a).toList) :
    (s.memWrite a v).reg r = s.reg r := by
  cases ha : regAt a with
  | some q =>
    obtain rfl := (regAt_eq_some a q).mp ha
    have hne : q ≠ r := by
      rintro rfl
      simp at hr
    rw [memWrite_addrOf, State.reg_setReg, if_neg hne]
  | none =>
    rw [memWrite_other s a v ha]
    rfl

theorem write_keeps_reg {i : Instr} {s t : State} {r : LinkReg} (hi : i.isWrite = true) (h : exec i s = .next t)
    (hr : r ∉ writtenRegs i) : t.reg r = s.reg r := by
  obtain ⟨-, ⟨v, rfl, rfl⟩ | ⟨v, rfl, rfl⟩ | ⟨v, rfl, rfl⟩ | ⟨v, rfl, rfl⟩ | ⟨a, v, rfl, -, rfl⟩⟩ :=
    write_cases hi h
  · have hcnt : .joycnt ≠ r := by simpa [writtenRegs, eq_comm] using hr
    exact LinkRegs.get_set_ne s.regs _ hcnt
  · have hstat : .joystat ≠ r := by simpa [writtenRegs, eq_comm] using hr
    exact LinkRegs.get_set_ne s.regs _ hstat
  · obtain ⟨hstat, hlo⟩ : .joystat ≠ r ∧ .transLo ≠ r := by simpa [writtenRegs, eq_comm] using hr
    exact (LinkRegs.get_set_ne _ _ hlo).trans (LinkRegs.get_set_ne _ _ hstat)
  · obtain ⟨hstat, hhi⟩ : .joystat ≠ r ∧ .transHi ≠ r := by simpa [writtenRegs, eq_comm] using hr
    exact (LinkRegs.get_set_ne _ _ hhi).trans (LinkRegs.get_set_ne _ _ hstat)
  · exact memWrite_keeps_reg v hr

/-- Of the register writes only WR_OTHER can change a byte outside the six registers. -/
theorem write_keeps_mem {i : Instr} {s t : State} (hi : i.isWrite = true) (h : exec i s = .next t)
    (hne : ∀ (a : Offset) (v : Half), i ≠ .wrOther a v) : t.mem = s.mem := by
  obtain ⟨-, ⟨v, -, rfl⟩ | ⟨v, -, rfl⟩ | ⟨v, -, rfl⟩ | ⟨v, -, rfl⟩ | ⟨a, v, rfl, -, -⟩⟩ := write_cases hi h
  case inr.inr.inr.inr => exact absurd rfl (hne a v)
  all_goals rfl

/-! ## Lifecycle operations -/

theorem lifecycle_keeps_coming {i : Instr} {s t : State} (hi : i.isLifecycle = true) (h : exec i s = .next t) :
    t.agenda = s.agenda ∧ t.readFails = s.readFails := by
  rcases lifecycle_cases hi h with ⟨-, rfl⟩ | ⟨-, ⟨o, -, rfl⟩ | ⟨-, rfl⟩ | ⟨-, rfl⟩ | ⟨-, rfl⟩⟩
  case inr.inl =>
    rcases connectWith_cases o s with ⟨-, ho⟩ | ⟨-, -, ho⟩ | ⟨-, -, -, ho⟩ <;> simp [ho]
  all_goals exact ⟨rfl, rfl⟩

/-! ## PROCESS -/

theorem rxq_of_commandByte {s : State} {b : Byte} (h : s.commandByte = some b) :
    ∃ rest : List Byte, s.rxq = b :: rest := by
  unfold State.commandByte at h
  split at h
  · cases h
  · exact List.head?_eq_some_iff.mp h

/-- A completed PROCESS only counted down, or was due and found no byte, or ran the command its byte decodes to. -/
theorem process_runs {e : Cycles} {s t : State} (h : exec (.process e) s = .next t) :
    (e.toInt < s.nec.toInt ∧ t = { s with nec := t.nec, csr := t.csr, result := t.result }) ∨
    (s.nec.toInt ≤ e.toInt ∧ s.commandByte = none ∧
      t = { s with
            nec := t.nec
            csr := t.csr
            ckq := if s.csr.toInt ≤ e.toInt then s.ckq.tail else s.ckq
            readFails := s.readFails.tail
            result := t.result }) ∨
    (s.nec.toInt ≤ e.toInt ∧ ∃ (b : Byte) (u : State), s.commandByte = some b ∧
      exec (decodeCommand b) (takenForCommand s e) = .next u ∧
      t = { u with nec := t.nec, csr := t.csr, result := t.result }) := by
  obtain ⟨-, -, ⟨hdue, n, c, -, -, rfl⟩ | ⟨hdue, n, c, -, ⟨hb, -, rfl⟩ | ⟨b, hb, -, rfl⟩⟩⟩ := process_cases h
  · exact .inl ⟨hdue, rfl⟩
  · exact .inr (.inl ⟨hdue, hb, rfl⟩)
  · exact .inr (.inr ⟨hdue, b, _, hb, exec_decodeCommand b _, rfl⟩)

/-- A PROCESS that is not due changes the counters alone. -/
theorem process_counts_down {e : Cycles} {s t : State} (h : exec (.process e) s = .next t)
    (hlt : e.toInt < s.nec.toInt) : t = { s with nec := t.nec, csr := t.csr, result := t.result } := by
  rcases process_runs h with ⟨-, ht⟩ | ⟨hdue, -⟩ | ⟨hdue, -⟩
  · exact ht
  · omega
  · omega

/-- A due PROCESS that reads no byte changes the counters, the head of CKQ on a poll, and the used read decision. -/
theorem process_idle {e : Cycles} {s t : State} (h : exec (.process e) s = .next t) (hdue : s.nec.toInt ≤ e.toInt)
    (hb : s.commandByte = none) :
    t = { s with
          nec := t.nec
          csr := t.csr
          ckq := if s.csr.toInt ≤ e.toInt then s.ckq.tail else s.ckq
          readFails := s.readFails.tail
          result := t.result } := by
  rcases process_runs h with ⟨hlt, -⟩ | ⟨-, -, ht⟩ | ⟨-, b, u, hb', -, -⟩
  · omega
  · exact ht
  · simp [hb] at hb'

/-- A due PROCESS that reads a byte runs the command it decodes to. -/
theorem process_command {e : Cycles} {s t : State} {b : Byte} (h : exec (.process e) s = .next t)
    (hdue : s.nec.toInt ≤ e.toInt) (hb : s.commandByte = some b) :
    ∃ u : State, exec (decodeCommand b) (takenForCommand s e) = .next u ∧
      t = { u with nec := t.nec, csr := t.csr, result := t.result } := by
  rcases process_runs h with ⟨hlt, -⟩ | ⟨-, hnone, -⟩ | ⟨-, b', u, hb', hu, ht⟩
  · omega
  · simp [hb] at hnone
  · obtain rfl : b = b' := Option.some.inj (hb.symm.trans hb')
    exact ⟨u, hu, ht⟩

theorem process_frame {e : Cycles} {s t : State} (h : exec (.process e) s = .next t) :
    t = { s with
          nec := t.nec
          csr := t.csr
          regs := t.regs
          rxq := t.rxq
          ckq := t.ckq
          txt := t.txt
          irqt := t.irqt
          result := t.result
          readFails := t.readFails
          draws := t.draws } := by
  rcases process_runs h with ⟨-, ht⟩ | ⟨-, -, ht⟩ | ⟨-, b, u, -, hu, ht⟩
  · rw [ht]
  · rw [ht]
  · rw [ht, command_frame (decodeCommand_isCommand b) hu]
    rfl

/-- Each command writes none but registers a PROCESS may write. -/
theorem writtenRegs_command_subset {i : Instr} (hi : i.isCommand = true) (e : Cycles) :
    writtenRegs i ⊆ writtenRegs (.process e) := by
  cases i <;> try cases hi
  all_goals simp [writtenRegs]

theorem process_keeps_reg {e : Cycles} {s t : State} {r : LinkReg} (h : exec (.process e) s = .next t)
    (hr : r ∉ writtenRegs (.process e)) : t.reg r = s.reg r := by
  rcases process_runs h with ⟨-, ht⟩ | ⟨-, -, ht⟩ | ⟨-, b, u, -, hu, ht⟩
  · rw [ht]
    rfl
  · rw [ht]
    rfl
  · have hb := decodeCommand_isCommand b
    have hkept : u.reg r = (takenForCommand s e).reg r :=
      command_keeps_reg hb hu (fun hmem => hr (writtenRegs_command_subset hb e hmem))
    rw [ht]
    exact hkept

/-- A due PROCESS that reads a byte takes it from RXQ, and where it is RECV's at most four more. -/
theorem process_takes_command {e : Cycles} {s t : State} {b : Byte} (h : exec (.process e) s = .next t)
    (hdue : s.nec.toInt ≤ e.toInt) (hb : s.commandByte = some b) :
    ∃ k : Nat, k ≤ 4 ∧ (b ≠ 0x15 → k = 0) ∧ t.rxq = s.rxq.drop (k + 1) := by
  obtain ⟨u, hu, ht⟩ := process_command h hdue hb
  obtain ⟨k, hk, hrecv, hrxq⟩ := command_takes_rxq (decodeCommand_isCommand b) hu
  refine ⟨k, hk, fun hne => hrecv (fun hd => hne ((decodeCommand_eq_recv b).mp hd)), ?_⟩
  rw [ht, ← List.drop_tail]
  exact hrxq

/-- A PROCESS takes at most one command from the front of RXQ (spec/42_sequencer.md rule R111 (a)). -/
theorem process_takes_rxq {e : Cycles} {s t : State} (h : exec (.process e) s = .next t) :
    ∃ n : Nat, n ≤ 5 ∧ (s.commandByte ≠ some 0x15 → n ≤ 1) ∧
      (e.toInt < s.nec.toInt ∨ s.commandByte = none → n = 0) ∧ t.rxq = s.rxq.drop n := by
  rcases process_runs h with ⟨hlt, ht⟩ | ⟨hdue, hb, ht⟩ | ⟨hdue, b, u, hb, -, -⟩
  · exact ⟨0, by omega, by omega, fun _ => rfl, by rw [ht]; rfl⟩
  · exact ⟨0, by omega, by omega, fun _ => rfl, by rw [ht]; rfl⟩
  · obtain ⟨k, hk, hrecv, hrxq⟩ := process_takes_command h hdue hb
    refine ⟨k + 1, by omega, fun hne => ?_, ?_, hrxq⟩
    · have := hrecv (fun hb15 => hne (hb15 ▸ hb))
      omega
    · rintro (hlt | hnone)
      · omega
      · simp [hb] at hnone

/-- What a PROCESS takes from CKQ: nothing where it is not due, else its head where the budget is spent. -/
theorem process_takes_ckq {e : Cycles} {s t : State} (h : exec (.process e) s = .next t) :
    t.ckq = if s.nec.toInt ≤ e.toInt ∧ s.csr.toInt ≤ e.toInt then s.ckq.tail else s.ckq := by
  rcases process_runs h with ⟨hdue, ht⟩ | ⟨hdue, hb, ht⟩ | ⟨hdue, b, u, hb, hu, ht⟩
  · rw [ht]
    simp [hdue]
  · rw [ht]
    simp [hdue]
  · rw [ht, command_frame (decodeCommand_isCommand b) hu]
    simp [hdue, takenForCommand]

end Sys2Proof.Machine

namespace Sys2Proof.Proofs

open Sys2Proof.Machine

/-- Settles O51, from the frame of each kind of operation. -/
theorem eachKindOfOperationKeepsTheRest : Obligations.EachKindOfOperationKeepsTheRest := by
  unfold Obligations.EachKindOfOperationKeepsTheRest
  intro i s t h
  refine ⟨fun hi => write_frame hi h, fun hi => command_frame hi h, fun hi => ?_, ?_⟩
  · obtain ⟨hregs, hmem⟩ := lifecycle_keeps_file hi h
    exact ⟨hregs, hmem, lifecycle_keeps_coming hi h⟩
  · rintro ⟨e, rfl⟩
    have hframe := process_frame h
    have hlo : t.reg .transLo = s.reg .transLo := process_keeps_reg h (by simp [writtenRegs])
    have hhi : t.reg .transHi = s.reg .transHi := process_keeps_reg h (by simp [writtenRegs])
    refine ⟨?_, ?_, ?_, ?_, ?_, hlo, hhi⟩ <;> rw [hframe]

/-- Settles O11: `process_command`. -/
theorem processRunsTheDecodedCommand : Obligations.ProcessRunsTheDecodedCommand := by
  unfold Obligations.ProcessRunsTheDecodedCommand
  exact fun s t e b h hdue hb => process_command h hdue hb

/-- Settles O39: `process_idle`. -/
theorem processWithoutAByteIsIdle : Obligations.ProcessWithoutAByteIsIdle := by
  unfold Obligations.ProcessWithoutAByteIsIdle
  exact fun s t e h hdue hb => process_idle h hdue hb

/-- Settles O40: a RECV takes its byte and at most four more, every other command its byte alone. -/
theorem processTakesAtMostOneCommandAndOneGrant : Obligations.ProcessTakesAtMostOneCommandAndOneGrant := by
  unfold Obligations.ProcessTakesAtMostOneCommandAndOneGrant
  intro s t e h
  refine ⟨process_takes_rxq h, ?_⟩
  rw [process_takes_ckq h]
  split_ifs with hpoll
  · exact ⟨1, by omega, by omega, List.drop_one.symm⟩
  · exact ⟨0, by omega, fun _ => rfl, rfl⟩

end Sys2Proof.Proofs

/-! PROOF. The machine's invariant: what leaves the channels as they are and only takes from the queues keeps it, the
memory keeps its canonical form under every write outside the six registers, and so every event keeps it. -/

namespace Sys2Proof.Machine

/-! ## The register file outside the six registers -/

theorem State.memOk_of_mem_eq {s t : State} (hm : t.mem = s.mem) (hs : s.memOk) : t.memOk := by
  unfold State.memOk at hs ⊢
  rw [hm]
  exact hs

theorem State.memOk_setFileByte {s : State} {a : Offset} (hs : s.memOk) (ha : byteOwner a = none) (b : Byte) :
    (s.setFileByte a b).memOk := by
  obtain ⟨hwf, hcells⟩ := hs
  refine ⟨Memory.wf_memSetByte _ _ _ hwf, fun c hc => ?_⟩
  rcases mem_memSetByte s.mem a.toNat b c hc with rfl | hold
  · exact ⟨a.isLt, by simpa using ha⟩
  · exact hcells c hold

theorem State.memOk_memWrite {s : State} {a : Offset} (hs : s.memOk) (ha : cutsLink a = false) (v : Half) :
    (s.memWrite a v).memOk := by
  cases hr : regAt a with
  | some r =>
    obtain rfl := (regAt_eq_some a r).mp hr
    rw [memWrite_addrOf]
    exact hs
  | none =>
    obtain ⟨hlow, hhigh⟩ := owners_of_not_cuts ha hr
    rw [memWrite_other s a v hr]
    exact State.memOk_setFileByte (State.memOk_setFileByte hs hlow (lo8 v)) hhigh (hi8 v)

theorem write_keeps_memOk {i : Instr} {s t : State} (hi : i.isWrite = true) (hs : s.memOk) (h : exec i s = .next t) :
    t.memOk := by
  obtain ⟨-, ⟨v, -, rfl⟩ | ⟨v, -, rfl⟩ | ⟨v, -, rfl⟩ | ⟨v, -, rfl⟩ | ⟨a, v, -, ha, rfl⟩⟩ := write_cases hi h
  case inr.inr.inr.inr => exact State.memOk_memWrite hs ha v
  all_goals exact hs

/-! ## The link -/

/-- The part of the invariant that speaks of the link: channels, queues, and whether a block exists. -/
def State.linkInv (s : State) : Prop := s.linkOk ∧ s.lifeOk

theorem State.Inv_iff (s : State) : s.Inv ↔ s.linkInv ∧ s.memOk := by
  simp [State.Inv, State.linkInv, and_assoc]

/-- The link's part is kept where block and channels are as before and the queues only lost items at their front. -/
theorem State.linkInv_of_taken {s t : State} (hs : s.linkInv) (hcreated : t.created = s.created)
    (hdata : t.dataChannel = s.dataChannel) (hclock : t.clockChannel = s.clockChannel)
    (hrxq : ∃ n : Nat, t.rxq = s.rxq.drop n) (hckq : ∃ m : Nat, t.ckq = s.ckq.drop m) : t.linkInv := by
  obtain ⟨⟨hpair, hempty⟩, hlife⟩ := hs
  obtain ⟨n, hrxq⟩ := hrxq
  obtain ⟨m, hckq⟩ := hckq
  refine ⟨⟨by rw [hdata, hclock, hpair], fun habs => ?_⟩, ?_⟩
  · obtain ⟨hr, hk⟩ := hempty (hdata ▸ habs)
    simp [hrxq, hckq, hr, hk]
  · unfold State.lifeOk
    rw [hcreated, hdata]
    exact hlife

/-- With both channels absent and both queues empty the link's part holds. -/
theorem State.linkInv_of_closed {t : State} (hdata : t.dataChannel = .absent) (hclock : t.clockChannel = .absent)
    (hrxq : t.rxq = []) (hckq : t.ckq = []) : t.linkInv :=
  ⟨⟨hdata.trans hclock.symm, fun _ => ⟨hrxq, hckq⟩⟩, fun _ => hdata⟩

theorem connectWith_keeps_linkInv {s : State} (hs : s.linkInv) (hc : s.created = true) (o : ConnectOutcome) :
    (connectWith o s).linkInv := by
  rcases connectWith_cases o s with ⟨-, ho⟩ | ⟨-, -, ho⟩ | ⟨-, hdata, -, ho⟩
  · rw [ho]
    exact ⟨⟨rfl, by simp⟩, by simp [State.lifeOk, hc]⟩
  · rw [ho]
    exact State.linkInv_of_closed rfl rfl rfl rfl
  · obtain ⟨⟨-, hempty⟩, -⟩ := hs
    obtain ⟨hrxq, hckq⟩ := hempty hdata
    rw [ho]
    exact State.linkInv_of_closed rfl rfl hrxq hckq

theorem lifecycle_keeps_linkInv {i : Instr} {s t : State} (hi : i.isLifecycle = true) (hs : s.linkInv)
    (h : exec i s = .next t) : t.linkInv := by
  rcases lifecycle_cases hi h with ⟨-, rfl⟩ | ⟨hc, ⟨o, -, rfl⟩ | ⟨-, rfl⟩ | ⟨-, rfl⟩ | ⟨-, rfl⟩⟩
  · exact State.linkInv_of_closed rfl rfl rfl rfl
  · exact connectWith_keeps_linkInv hs hc o
  · exact State.linkInv_of_closed rfl rfl rfl rfl
  · exact State.linkInv_of_closed rfl rfl rfl rfl
  · exact hs

theorem command_keeps_linkInv {i : Instr} {s t : State} (hi : i.isCommand = true) (hs : s.linkInv)
    (h : exec i s = .next t) : t.linkInv := by
  obtain ⟨k, -, -, hrxq⟩ := command_takes_rxq hi h
  have hframe := command_frame hi h
  have hckq : t.ckq = s.ckq := by rw [hframe]
  exact State.linkInv_of_taken hs (by rw [hframe]) (by rw [hframe]) (by rw [hframe]) ⟨k, hrxq⟩ ⟨0, hckq⟩

theorem process_keeps_linkInv {e : Cycles} {s t : State} (hs : s.linkInv) (h : exec (.process e) s = .next t) :
    t.linkInv := by
  obtain ⟨n, -, -, -, hrxq⟩ := process_takes_rxq h
  have hckq : ∃ m : Nat, t.ckq = s.ckq.drop m := by
    rw [process_takes_ckq h]
    split_ifs
    · exact ⟨1, List.drop_one.symm⟩
    · exact ⟨0, rfl⟩
  have hframe := process_frame h
  exact State.linkInv_of_taken hs (by rw [hframe]) (by rw [hframe]) (by rw [hframe]) ⟨n, hrxq⟩ hckq

/-! ## Operations and events -/

theorem exec_keeps_Inv {i : Instr} {s t : State} (hs : s.Inv) (h : exec i s = .next t) : t.Inv := by
  obtain ⟨hlink, hmem⟩ := s.Inv_iff.mp hs
  refine t.Inv_iff.mpr ?_
  rcases kind_cases i with hi | hi | hi | ⟨e, rfl⟩
  · exact ⟨command_keeps_linkInv hi hlink h, State.memOk_of_mem_eq (by rw [command_frame hi h]) hmem⟩
  · refine ⟨?_, write_keeps_memOk hi hmem h⟩
    rw [write_frame hi h]
    exact hlink
  · exact ⟨lifecycle_keeps_linkInv hi hlink h, State.memOk_of_mem_eq (lifecycle_keeps_file hi h).2 hmem⟩
  · exact ⟨process_keeps_linkInv hlink h, State.memOk_of_mem_eq (by rw [process_frame h]) hmem⟩

theorem storeAny_keeps_Inv {size : AccessSize} {a : Offset} {v : BitVec 32} {s t : State} (hs : s.Inv)
    (h : storeAny size a v s = .next t) : t.Inv := by
  rcases storeAny_cases h with ⟨i, coming, -, hexec⟩ | ⟨b, htouch, rfl⟩
  · exact exec_keeps_Inv (s := s.setAgenda coming) hs hexec
  · obtain ⟨hlink, hmem⟩ := s.Inv_iff.mp hs
    have howner : byteOwner a = none := by simpa [touchesLink] using htouch
    exact (State.Inv_iff _).mpr ⟨hlink, State.memOk_setFileByte hmem howner b⟩

/-- Bytes arrive only where the data channel is connected, so nothing comes to wait on an absent one. -/
theorem arriveBytes_keeps_Inv {s : State} (hs : s.Inv) (bs : List Byte) : (arriveBytes bs s).Inv := by
  unfold arriveBytes
  split_ifs with hcon
  · obtain ⟨⟨hpair, -⟩, hlife, hmem⟩ := hs
    have hdata : s.dataChannel = .connected := by simpa using hcon
    exact ⟨⟨hpair, by simp [hdata]⟩, hlife, hmem⟩
  · exact hs

theorem arriveClock_keeps_Inv {s : State} (hs : s.Inv) (r : ClockRead) : (arriveClock r s).Inv := by
  unfold arriveClock
  split_ifs with hcon
  · obtain ⟨⟨hpair, -⟩, hlife, hmem⟩ := hs
    have hclock : s.clockChannel = .connected := by simpa using hcon
    exact ⟨⟨hpair, by simp [hpair, hclock]⟩, hlife, hmem⟩
  · exact hs

theorem consoleReset_keeps_Inv {s : State} (hs : s.Inv) : (consoleReset s).Inv := by
  obtain ⟨hlink, hlife, -⟩ := hs
  exact ⟨hlink, hlife, rfl, by simp [consoleReset]⟩

theorem serve_keeps_Inv {ev : Event} {s t : State} (hs : s.Inv) (h : serve ev s = .next t) : t.Inv := by
  cases ev with
  | call op => exact exec_keeps_Inv hs h
  | store size a v => exact storeAny_keeps_Inv hs h
  | load a =>
    obtain ⟨-, rfl⟩ := loadHalf_eq_next h
    exact hs
  | peerBytes bs =>
    cases h
    exact arriveBytes_keeps_Inv hs bs
  | peerClock r =>
    cases h
    exact arriveClock_keeps_Inv hs r
  | readDecision fails =>
    cases h
    exact hs
  | consoleReset =>
    cases h
    exact consoleReset_keeps_Inv hs

theorem step_keeps_Inv {s t : State} (hs : s.Inv) (h : step s = .next t) : t.Inv := by
  cases ha : s.agenda with
  | nil =>
    rw [step_nil ha] at h
    cases h
    exact hs
  | cons ev rest =>
    rw [step_cons ha] at h
    exact serve_keeps_Inv (s := s.setAgenda rest) hs h

end Sys2Proof.Machine

namespace Sys2Proof.Proofs

open Sys2Proof.Machine

/-- Settles O8, event by event. -/
theorem stepKeepsTheInvariant : Obligations.StepKeepsTheInvariant := by
  unfold Obligations.StepKeepsTheInvariant
  exact fun s t hs h => step_keeps_Inv hs h

/-- Settles O7: at reset both channels are absent, both queues and the rest of the file are empty. -/
theorem resetStateMeetsTheInvariants : Obligations.ResetStateMeetsTheInvariants := by
  unfold Obligations.ResetStateMeetsTheInvariants
  have hlink : State.reset.linkInv := State.linkInv_of_closed rfl rfl rfl rfl
  have hmem : State.reset.memOk := ⟨rfl, by simp [State.reset]⟩
  exact ⟨State.reset.Inv_iff.mpr ⟨hlink, hmem⟩, le_refl _⟩

/-- Settles O6: the reset state written out. -/
theorem resetStateValues : Obligations.ResetStateValues := by
  unfold Obligations.ResetStateValues
  exact ⟨rfl, rfl, rfl, rfl, rfl, rfl, rfl, rfl⟩

end Sys2Proof.Proofs

/-! PROOF. The wire commands (spec/43_commands.md) as operations of their own, and the order in which bytes, halves and
words cross the link (spec/30_encoding.md rules R63, R65, R69). -/

namespace Sys2Proof.Machine

/-! ## The state each command leaves -/

theorem exec_reset (s : State) :
    exec .reset s = .next ((resetCommand s).state.returning (.cycles 2550#32)) := by
  show dispatchedAnswer (resetCommand s) = _
  rw [dispatchedAnswer, resetCommand_cost]

theorem exec_poll (s : State) :
    exec .poll s = .next ((pollCommand s).state.returning (.cycles 2550#32)) := by
  show dispatchedAnswer (pollCommand s) = _
  rw [dispatchedAnswer, pollCommand_cost]

theorem exec_recv (s : State) :
    exec .recv s = .next ((recvCommand s).state.returning (.cycles 3750#32)) := by
  show dispatchedAnswer (recvCommand s) = _
  rw [dispatchedAnswer, recvCommand_cost]

theorem exec_trans (s : State) :
    exec .trans s = .next ((transCommand s).state.returning (.cycles 3750#32)) := by
  show dispatchedAnswer (transCommand s) = _
  rw [dispatchedAnswer, transCommand_cost]

/-! ## The payload of RECV -/

theorem payloadByte_eq (p : List Byte) (draws k : Nat) :
    payloadByte p draws k = if h : k < p.length then p[k] else Config.freeByte (draws + (k - p.length)) := by
  unfold payloadByte
  split_ifs with h
  · simp [h]
  · simp [h]

/-- A read that delivers takes a whole payload where four bytes wait. -/
theorem rxBytes_four {s : State} {p0 p1 p2 p3 : Byte} {rest : List Byte} (hf : s.readFailsNow = false)
    (hq : s.rxq = p0 :: p1 :: p2 :: p3 :: rest) : s.rxBytes 4 = [p0, p1, p2, p3] := by
  simp [State.rxBytes, hf, hq]

/-! ## Halves of a word, bytes of a half -/

theorem or_half_zero (v : Half) : v ||| 0 = v := BitVec.or_zero

theorem and_half_not_zero (v : Half) : v &&& ~~~0 = v := by
  have hones : ~~~(0 : Half) = BitVec.allOnes _ := by decide
  rw [hones, BitVec.and_allOnes]

theorem lo8_setWidth (w : BitVec 32) : lo8 (w.setWidth 16) = w.setWidth 8 := by
  simp [lo8]

theorem hi8_setWidth (w : BitVec 32) : hi8 (w.setWidth 16) = (w >>> 8).setWidth 8 := by
  apply BitVec.eq_of_getLsbD_eq
  intro k hk
  have h16 : 8 + k < 16 := by omega
  simp [hi8, hk, h16]

/-- A word is made of its two halves. -/
theorem wordOf_halves (w : BitVec 32) : wordOf ((w >>> 16).setWidth 16) (w.setWidth 16) = w := by
  apply BitVec.eq_of_getLsbD_eq
  intro k hk
  by_cases hlow : k < 16
  · simp [wordOf, hk, hlow]
  · have h16 : k - 16 < 16 := by omega
    have hadd : 16 + (k - 16) = k := by omega
    simp [wordOf, hk, hlow, h16, hadd]

theorem low_half_wordOf (hi lo : Half) : (wordOf hi lo).setWidth 16 = lo := by
  apply BitVec.eq_of_getLsbD_eq
  intro k (hk : k < 16)
  simp [wordOf, hk]

theorem high_half_wordOf (hi lo : Half) : ((wordOf hi lo) >>> 16).setWidth 16 = hi := by
  apply BitVec.eq_of_getLsbD_eq
  intro k (hk : k < 16)
  have h32 : 16 + k < 32 := by omega
  simp [wordOf, hk, h32]

/-- The bytes of a payload are those of the low half and then those of the high half, each low byte first. -/
theorem recvBytes_tail (w : BitVec 32) :
    (recvBytes w).tail =
      [lo8 (w.setWidth 16), hi8 (w.setWidth 16), lo8 ((w >>> 16).setWidth 16), hi8 ((w >>> 16).setWidth 16)] := by
  have htop : w >>> 24 = (w >>> 16) >>> 8 := BitVec.shiftRight_add w 16 8
  rw [lo8_setWidth, hi8_setWidth, lo8_setWidth, hi8_setWidth, ← htop]
  rfl

/-- The receive registers hold the word whose payload bytes they were filled from. -/
theorem wordOf_payload {w : BitVec 32} {p0 p1 p2 p3 : Byte} (h : (recvBytes w).tail = [p0, p1, p2, p3]) :
    wordOf (le16 p2 p3) (le16 p0 p1) = w := by
  rw [recvBytes_tail] at h
  obtain ⟨rfl, rfl, rfl, rfl⟩ : lo8 (w.setWidth 16) = p0 ∧ hi8 (w.setWidth 16) = p1 ∧
      lo8 ((w >>> 16).setWidth 16) = p2 ∧ hi8 ((w >>> 16).setWidth 16) = p3 := by simpa using h
  rw [le16_lo8_hi8, le16_lo8_hi8, wordOf_halves]

/-- A grant is read as the number that was sent. -/
theorem be32s_bytes (n : BitVec 32) :
    be32s ((n >>> 24).setWidth 8) ((n >>> 16).setWidth 8) ((n >>> 8).setWidth 8) (n.setWidth 8) = n := by
  apply BitVec.eq_of_getLsbD_eq
  intro k hk
  simp only [be32s, BitVec.getLsbD_or, BitVec.getLsbD_shiftLeft, BitVec.getLsbD_setWidth,
    BitVec.getLsbD_ushiftRight]
  have hbyte : k < 8 ∨ (8 ≤ k ∧ k < 16) ∨ (16 ≤ k ∧ k < 24) ∨ 24 ≤ k := by omega
  rcases hbyte with h | h | h | h <;> grind

end Sys2Proof.Machine

namespace Sys2Proof.Proofs

open Sys2Proof.Machine

/-- Settles O28: the dispatched RESET, its cost returned. -/
theorem resetSetsRstAndAnswersLikePoll : Obligations.ResetSetsRstAndAnswersLikePoll := by
  unfold Obligations.ResetSetsRstAndAnswersLikePoll
  intro s
  rw [exec_reset, resetCommand_state]
  rfl

/-- Settles O29: the dispatched POLL, its cost returned. -/
theorem pollOnlyAnswers : Obligations.PollOnlyAnswers := by
  unfold Obligations.PollOnlyAnswers
  intro s
  rw [exec_poll, pollCommand_state]
  rfl

/-- Settles O31: the payload is what the read gave, and `payloadByte` fills it up. -/
theorem recvFillsFromWhatArrived : Obligations.RecvFillsFromWhatArrived := by
  unfold Obligations.RecvFillsFromWhatArrived
  intro s
  refine ⟨s.rxBytes 4, payloadByte (s.rxBytes 4) s.draws, rfl, fun k _ => payloadByte_eq _ _ k, ?_⟩
  rw [exec_recv, recvCommand_state]
  rfl

/-- Settles O30: four bytes arrived, so no byte is drawn. -/
theorem recvOfACompletePayload : Obligations.RecvOfACompletePayload := by
  unfold Obligations.RecvOfACompletePayload
  intro s p0 p1 p2 p3 rest hf hq
  rw [exec_recv, recvCommand_state, rxBytes_four hf hq, hq]
  rfl

/-- Settles O35: RECV stores the payload of the word, a grant is put together from its bytes, and the word TRANS sends
has the payload bytes of its two halves. -/
theorem wordsCrossTheLinkInWireOrder : Obligations.WordsCrossTheLinkInWireOrder := by
  unfold Obligations.WordsCrossTheLinkInWireOrder
  refine ⟨?_, fun n => ⟨_, _, _, _, rfl, be32s_bytes n⟩, ?_⟩
  · intro s t w rest hf hq h
    have hpayload : s.rxq = (recvBytes w).tail ++ rest := (List.cons.inj hq).2
    have hrxq : s.rxq = _ :: _ :: _ :: _ :: rest := hpayload
    rw [exec_recv, recvCommand_state, rxBytes_four hf hrxq, hrxq] at h
    cases h
    exact ⟨wordOf_payload rfl, rfl⟩
  · intro s t h
    rw [exec_trans, transCommand_state] at h
    cases h
    refine ⟨lo8 (clearBits txpMask s.regs.joystat), ?_⟩
    rw [recvBytes_tail, low_half_wordOf, high_half_wordOf]
    simp

/-- Settles O32: the dispatched TRANS, its cost returned. -/
theorem transSendsTheWordAndClearsPending : Obligations.TransSendsTheWordAndClearsPending := by
  unfold Obligations.TransSendsTheWordAndClearsPending
  intro s
  rw [exec_trans, transCommand_state]
  rfl

/-- Settles O34: RESET changes JOYCNT alone before it sends POLL's response. -/
theorem resetAndPollAnswerAlike : Obligations.ResetAndPollAnswerAlike := by
  unfold Obligations.ResetAndPollAnswerAlike
  intro s
  refine ⟨_, _, exec_reset s, exec_poll s, ?_, ?_⟩
  · simp [resetCommand_state, pollCommand_state]
  · simp [resetCommand_state, pollCommand_state]

/-- Settles O47: each command's masks and bytes, in the cases of `command_cases`. -/
theorem commandsTestIenAlone : Obligations.CommandsTestIenAlone := by
  unfold Obligations.CommandsTestIenAlone
  intro i s t hi h
  rcases command_cases hi h with ⟨rfl, rfl⟩ | ⟨rfl, rfl⟩ | ⟨rfl, rfl⟩ | ⟨rfl, rfl⟩ | ⟨b, rfl, rfl⟩
  · refine ⟨rstMask, 0, 0, [0x00, 0x04], true, fun cnt stat hien => ?_⟩
    have hraise : ienOf cnt = ienOf s.regs.joycnt := hien
    rw [exec_reset, resetCommand_state, resetCommand_state, or_half_zero, and_half_not_zero]
    simp [hraise, State.returning, setBits]
  · refine ⟨0, 0, 0, [0x00, 0x04], true, fun cnt stat _ => ?_⟩
    rw [exec_poll, pollCommand_state, pollCommand_state, or_half_zero, or_half_zero, and_half_not_zero]
    simp [State.returning]
  · refine ⟨rcvMask, rxaMask, 0, [], true, fun cnt stat hien => ?_⟩
    have hraise : ienOf cnt = ienOf s.regs.joycnt := hien
    rw [exec_recv, recvCommand_state, recvCommand_state, and_half_not_zero]
    simp [hraise, State.returning, setBits, State.rxBytes, State.readFailsNow]
  · refine ⟨sndMask, 0, txpMask, [lo8 s.regs.joyTransLo, hi8 s.regs.joyTransLo, lo8 s.regs.joyTransHi,
      hi8 s.regs.joyTransHi], true, fun cnt stat hien => ?_⟩
    have hraise : ienOf cnt = ienOf s.regs.joycnt := hien
    rw [exec_trans, transCommand_state, transCommand_state, or_half_zero]
    simp [hraise, State.returning, setBits, clearBits]
  · refine ⟨0, 0, 0, [], false, fun cnt stat _ => ?_⟩
    rw [exec_unrecognized, unrecognizedCommand_state, unrecognizedCommand_cost, or_half_zero, or_half_zero,
      and_half_not_zero]
    simp [State.returning]

end Sys2Proof.Proofs

/-! PROOF. The remaining register writes and the CPU-side stores of every size (spec/41_register_write.md,
spec/20_memory.md sections 1 and 3): which bits WR_JOYCNT stores, what WR_OTHER makes of each byte, and the operations a
store is made of. -/

namespace Sys2Proof.Machine

/-! ## The value WR_JOYCNT stores -/

theorem ienMask_getLsbD {k : Nat} (hk : k < 16) : ienMask.getLsbD k = decide (k = 6) := by
  revert k
  decide

theorem eventMask_getLsbD {k : Nat} (hk : k < 16) : eventMask.getLsbD k = decide (k ≤ 2) := by
  revert k
  decide

/-- Bit 6 comes from the written value, an event flag is cleared by a written 1, every other bit is the old one
(spec/41_register_write.md rule R90). -/
theorem joycntStored_getLsbD (old value : Half) {k : Nat} (hk : k < 16) :
    (joycntStored old value).getLsbD k =
      if k = 6 then value.getLsbD k
      else if k ≤ 2 then old.getLsbD k && !value.getLsbD k
      else old.getLsbD k := by
  have hreg : k < Config.params.regw := hk
  simp only [joycntStored, BitVec.getLsbD_or, BitVec.getLsbD_and, BitVec.getLsbD_not, ienMask_getLsbD hk,
    eventMask_getLsbD hk]
  by_cases hien : k = 6
  · simp [hien]
  · by_cases hevent : k ≤ 2 <;> simp [hien, hevent, hreg]

/-- ACK writes back IEN as it is and a 1 in each named event flag (spec/30_encoding.md rule R70). -/
theorem joycntStored_ack (old flags : Half) :
    joycntStored old ((old &&& ienMask) ||| (flags &&& eventMask)) = old &&& ~~~(flags &&& eventMask) := by
  apply BitVec.eq_of_getLsbD_eq
  intro k hreg
  have hk : k < 16 := hreg
  simp only [joycntStored_getLsbD _ _ hk, BitVec.getLsbD_or, BitVec.getLsbD_and, BitVec.getLsbD_not,
    ienMask_getLsbD hk, eventMask_getLsbD hk]
  by_cases hien : k = 6
  · subst hien
    simp
  · by_cases hevent : k ≤ 2 <;> simp [hien, hevent, hk]

/-! ## The state a write leaves -/

theorem exec_wrJoycnt {s : State} (hc : s.created = true) (value : Half) :
    exec (.wrJoycnt value) s = .next (s.commit .joycnt (joycntStored s.regs.joycnt value)) :=
  whenCreated_of_created hc _

theorem exec_wrOther {s : State} (hc : s.created = true) {a : Offset} (ha : cutsLink a = false) (value : Half) :
    exec (.wrOther a value) s = .next ((s.memWrite a value).returning (.half value)) := by
  show execWrOther a value s = _
  rw [execWrOther, whenCreated_of_created hc, ha]
  rfl

theorem exec_wrOther_cuts {s : State} (hc : s.created = true) {a : Offset} (ha : cutsLink a = true) (value : Half) :
    exec (.wrOther a value) s = .refused .unsupportedAccessSize := by
  show execWrOther a value s = _
  rw [execWrOther, whenCreated_of_created hc, ha]
  rfl

/-- WR_OTHER at the offset of a link register commits the value to that register alone. -/
theorem exec_wrOther_addrOf {s : State} (hc : s.created = true) (r : LinkReg) (value : Half) :
    exec (.wrOther (addrOf r) value) s = .next (s.commit r value) := by
  rw [exec_wrOther hc (cutsLink_addrOf r), memWrite_addrOf]
  rfl

/-! ## Stores and reads -/

/-- A 16-bit store is the register write its offset selects. -/
theorem serve_store_half (a : Offset) (v : Half) (s : State) :
    serve (.store .half a (v.setWidth 32)) s = exec (decodeWrite a v) s :=
  congrArg (fun w => exec (decodeWrite a w) s) (setWidth_half v)

/-- A 32-bit store that is split writes its low half and leaves the high half on the agenda. -/
theorem serve_store_word {a : Offset} (ha : splits a = true) (gap : Nat) (v : BitVec 32) (s : State) :
    serve (.store (.word gap) a v) s =
      exec (decodeWrite a (v.setWidth 16))
        (s.setAgenda (insertAfter gap (.store .half (a + 2) (((v >>> 16).setWidth 16).setWidth 32)) s.agenda)) := by
  show storeAny (.word gap) a v s = _
  simp only [storeAny, decodeStore, ha, if_true]

theorem serve_store_word_unsupported {a : Offset} (ha : splits a = false) (gap : Nat) (v : BitVec 32) (s : State) :
    serve (.store (.word gap) a v) s = .refused .unsupportedAccessSize := by
  show storeAny (.word gap) a v s = _
  simp [storeAny, decodeStore, ha]

theorem serve_store_byte_unsupported {a : Offset} (ha : touchesLink 1 a = true) (v : BitVec 32) (s : State) :
    serve (.store .byte a v) s = .refused .unsupportedAccessSize := by
  show storeAny .byte a v s = _
  simp [storeAny, decodeStore, ha]

/-- A 32-bit store that touches a link register is split at the offsets of JOY_TRANS and JOY_RECV only. -/
theorem splits_eq_false {a : Offset} (ha : touchesLink 4 a = true) (htrans : a ≠ 0x0154) (hrecv : a ≠ 0x0150) :
    splits a = false := by
  have ht : a ≠ addrOf .transLo := htrans
  have hr : a ≠ addrOf .recvLo := hrecv
  simp [splits, ha, ht, hr]

theorem loadHalf_addrOf (r : LinkReg) (s : State) :
    loadHalf (addrOf r) s = .next (s.returning (.half (s.reg r))) := by
  unfold loadHalf
  rw [cutsLink_addrOf, memRead_addrOf]
  rfl

/-! ## What a write reads -/

theorem memWrite_of_same_file {s s' : State} (hr : s'.regs = s.regs) (hm : s'.mem = s.mem) (a : Offset) (v : Half) :
    s'.memWrite a v = { s' with regs := (s.memWrite a v).regs, mem := (s.memWrite a v).mem } := by
  cases ha : regAt a with
  | some r =>
    obtain rfl := (regAt_eq_some a r).mp ha
    simp only [memWrite_addrOf, State.setReg, State.setRegs, hr, hm]
  | none =>
    simp only [memWrite_other _ a v ha, State.setMem, hr, hm]

/-- A register write reads the register file alone: from any state with the same file it makes the same of the file and
returns the same value, and leaves the rest of that state. -/
theorem write_of_same_file {i : Instr} {s s' t : State} (hi : i.isWrite = true) (h : exec i s = .next t)
    (hc' : s'.created = s.created) (hr : s'.regs = s.regs) (hm : s'.mem = s.mem) :
    exec i s' = .next { s' with regs := t.regs, mem := t.mem, result := t.result } := by
  obtain ⟨hc, hcases⟩ := write_cases hi h
  rw [hc] at hc'
  rcases hcases with ⟨v, rfl, rfl⟩ | ⟨v, rfl, rfl⟩ | ⟨v, rfl, rfl⟩ | ⟨v, rfl, rfl⟩ | ⟨a, v, rfl, ha, rfl⟩
  · rw [exec_wrJoycnt hc']
    simp [State.commit_state, hr, ← hm]
  · rw [exec_wrJoystat hc']
    simp [State.commit_state, hr, ← hm]
  · rw [exec_wrJoyTransLo hc']
    simp [State.commit_state, markTransmitPending_state, hr, ← hm]
  · rw [exec_wrJoyTransHi hc']
    simp [State.commit_state, markTransmitPending_state, hr, ← hm]
  · rw [exec_wrOther hc' ha, memWrite_of_same_file hr hm]
    rfl

end Sys2Proof.Machine

namespace Sys2Proof.Proofs

open Sys2Proof.Machine

/-- Settles O19: the value stored is `joycntStored`, bit by bit. -/
theorem wrJoycntStoresBitByBit : Obligations.WrJoycntStoresBitByBit := by
  unfold Obligations.WrJoycntStoresBitByBit
  intro s value hc
  refine ⟨joycntStored s.regs.joycnt value, ?_, fun k hk => joycntStored_getLsbD s.regs.joycnt value hk⟩
  rw [exec_wrJoycnt hc, State.commit_state, LinkRegs.set_joycnt]

/-- Settles O22: the write is `memWrite`, whose bytes `memWrite_bytes` says. -/
theorem wrOtherStoresTheValueUnchanged : Obligations.WrOtherStoresTheValueUnchanged := by
  unfold Obligations.WrOtherStoresTheValueUnchanged
  intro s a value hc hmem _ ha
  refine ⟨_, exec_wrOther hc ha value, ?_, memWrite_bytes s a value hmem.1 ha⟩
  rw [memWrite_frame]
  rfl

/-- Settles O23: both offsets select WR_OTHER at a link register's own offset. -/
theorem receiveRegistersAreWrittenAsGiven : Obligations.ReceiveRegistersAreWrittenAsGiven := by
  unfold Obligations.ReceiveRegistersAreWrittenAsGiven
  exact fun s value hc => ⟨exec_wrOther_addrOf hc .recvLo value, exec_wrOther_addrOf hc .recvHi value⟩

/-- Settles O24, size by size. -/
theorem unsupportedStoresAreRefused : Obligations.UnsupportedStoresAreRefused := by
  unfold Obligations.UnsupportedStoresAreRefused
  refine ⟨?_, fun s a v ha => serve_store_byte_unsupported ha v s, ?_⟩
  · intro s a v hc ha
    rw [serve_store_half, decodeWrite_of_cuts ha, exec_wrOther_cuts hc ha]
  · intro s gap a v ha htrans hrecv
    exact serve_store_word_unsupported (splits_eq_false ha htrans hrecv) gap v s

/-- Settles O25: both offsets are split, and each half is the write its own offset selects. -/
theorem wordStoreIsTwoHalfWrites : Obligations.WordStoreIsTwoHalfWrites := by
  unfold Obligations.WordStoreIsTwoHalfWrites
  intro s gap value rest hc
  have hc' : ∀ coming : List Event, (s.setAgenda coming).created = true := fun _ => hc
  refine ⟨fun ha => ?_, fun ha => ?_, fun ha => ?_, fun ha => ?_⟩
  · rw [step_cons ha, serve_store_word rfl]
    exact exec_wrJoyTransLo (hc' _) _
  · rw [step_cons ha, serve_store_half]
    exact exec_wrJoyTransHi (hc' _) _
  · rw [step_cons ha, serve_store_word rfl]
    exact exec_wrOther_addrOf (hc' _) .recvLo _
  · rw [step_cons ha, serve_store_half]
    exact exec_wrOther_addrOf (hc' _) .recvHi _

/-- Settles O26: no link register's own offset cuts one. -/
theorem readReturnsTheRegisterAndChangesNothing : Obligations.ReadReturnsTheRegisterAndChangesNothing := by
  unfold Obligations.ReadReturnsTheRegisterAndChangesNothing
  exact fun s r => loadHalf_addrOf r s

/-- Settles O27: ACK is a WR_JOYCNT whose stored value is `joycntStored_ack`. -/
theorem ackClearsTheNamedFlagsAndKeepsIen : Obligations.AckClearsTheNamedFlagsAndKeepsIen := by
  unfold Obligations.AckClearsTheNamedFlagsAndKeepsIen
  intro s flags rest hc ha
  have hstep : step s =
      exec (.wrJoycnt ((s.regs.joycnt &&& ienMask) ||| (flags &&& eventMask))) (s.setAgenda rest) := by
    rw [step_cons ha]
    exact serve_store_half (addrOf .joycnt) _ _
  refine ⟨_, hstep.trans (exec_wrJoycnt (s := s.setAgenda rest) hc _), ?_⟩
  rw [State.commit_regs, State.setAgenda_regs, joycntStored_ack]
  rfl

/-- Settles O52: a state with another link has the same register file. -/
theorem registerWritesIgnoreTheLink : Obligations.RegisterWritesIgnoreTheLink := by
  unfold Obligations.RegisterWritesIgnoreTheLink
  intro i s t d c rx ck n r hi h
  have hother := write_of_same_file
    (s' := { s with dataChannel := d, clockChannel := c, rxq := rx, ckq := ck, nec := n, csr := r }) hi h rfl rfl rfl
  rw [hother, write_frame hi h]

end Sys2Proof.Proofs

/-! PROOF. The lifecycle operations on an existing block (spec/40_link_lifecycle.md), the causes of a refusal
(spec/60_exceptions.md section 2), and what the agents outside do in one step. -/

namespace Sys2Proof.Machine

/-! ## The state a lifecycle operation leaves -/

theorem exec_connect {s : State} (hc : s.created = true) (o : ConnectOutcome) :
    exec (.connect o) s = .next (connectWith o s) :=
  whenCreated_of_created hc _

theorem connectWith_ok (s : State) :
    connectWith .ok s =
      { s with dataChannel := .connected, clockChannel := .connected, rxq := [], ckq := [], result := .bool true } := by
  rcases connectWith_cases .ok s with ⟨-, heq⟩ | ⟨hne, -, -⟩ | ⟨hne, -, -, -⟩
  · exact heq
  · exact absurd rfl hne
  · exact absurd rfl hne

/-- A failed CONNECT closes what was connected. -/
theorem connectWith_fail {o : ConnectOutcome} (ho : o ≠ .ok) (s : State) :
    connectWith o s =
      if s.dataChannel = .connected ∨ s.clockChannel = .connected then
        { s with dataChannel := .absent, clockChannel := .absent, rxq := [], ckq := [], result := .bool false }
      else { s with dataChannel := .absent, clockChannel := .absent, result := .bool false } := by
  rcases connectWith_cases o s with ⟨hok, -⟩ | ⟨-, hopen, heq⟩ | ⟨-, hdata, hclock, heq⟩
  · exact absurd hok ho
  · rw [heq, if_pos hopen]
  · rw [heq, if_neg (by simp [hdata, hclock])]

theorem exec_teardown {s : State} (hc : s.created = true) :
    exec .teardown s = .next ((closeChannels s).returning .nothing) :=
  whenCreated_of_created hc _

theorem exec_destroy {s : State} (hc : s.created = true) :
    exec .destroy s = .next (((closeChannels s).setCreated false).returning .nothing) :=
  whenCreated_of_created hc _

theorem exec_onload {s : State} (hc : s.created = true) :
    exec .onload s = .next (((s.setNec 0).setCsr 0).returning (.bool true)) :=
  whenCreated_of_created hc _

/-! ## Refusals -/

theorem whenCreated_eq_refused (s : State) (k : Answer) (r : Refusal) :
    whenCreated s k = .refused r ↔ (s.created = false ∧ r = .noBlock) ∨ (s.created = true ∧ k = .refused r) := by
  unfold whenCreated
  cases s.created <;> simp [eq_comm]

theorem whenCreated_idem (s : State) (k : Answer) : whenCreated s (whenCreated s k) = whenCreated s k := by
  unfold whenCreated
  split <;> rfl

/-- Every host operation but CREATE is guarded by the existence of a block. -/
theorem exec_guarded {i : Instr} (hi : i.isCommand = false) (hne : i ≠ .create) (s : State) :
    whenCreated s (exec i s) = exec i s := by
  cases i <;> try cases hi
  case create => exact absurd rfl hne
  all_goals exact whenCreated_idem s _

theorem exec_of_no_block {i : Instr} (hi : i.isCommand = false) (hne : i ≠ .create) {s : State}
    (hc : s.created = false) : exec i s = .refused .noBlock := by
  rw [← exec_guarded hi hne]
  simp [whenCreated, hc]

theorem exec_process_not_linked {s : State} (hc : s.created = true) (hl : s.linked = false) (e : Cycles) :
    exec (.process e) s = .refused .notConnected := by
  show execProcess e s = _
  rw [execProcess, whenCreated_of_created hc, hl]
  rfl

theorem exec_process_no_tick {s : State} {e : Cycles} (hc : s.created = true) (hl : s.linked = true)
    (ht : tick e s = none) : exec (.process e) s = .refused .counterOverflow := by
  show execProcess e s = _
  rw [execProcess, whenCreated_of_created hc, hl, ht]
  rfl

/-- A wire command and CREATE complete in every state. -/
theorem exec_ne_refused {i : Instr} (hi : i.isCommand = true ∨ i = .create) (s : State) (r : Refusal) :
    exec i s ≠ .refused r := by
  rcases hi with hi | rfl
  · cases i <;> cases hi <;> nofun
  · nofun

theorem process_refused {e : Cycles} {s : State} {r : Refusal} (hc : s.created = true)
    (h : exec (.process e) s = .refused r) :
    (r = .notConnected ∧ s.linked = false) ∨ (r = .counterOverflow ∧ s.linked = true ∧ tick e s = none) := by
  cases hl : s.linked with
  | false =>
    rw [exec_process_not_linked hc hl] at h
    cases h
    exact .inl ⟨rfl, rfl⟩
  | true =>
    cases ht : tick e s with
    | none =>
      rw [exec_process_no_tick hc hl ht] at h
      cases h
      exact .inr ⟨rfl, rfl, rfl⟩
    | some t =>
      rw [(exec_process_eq_next e s t).mpr ⟨hc, hl, ht⟩] at h
      cases h

theorem wrOther_refused {a : Offset} {v : Half} {s : State} {r : Refusal} (hc : s.created = true)
    (h : exec (.wrOther a v) s = .refused r) : r = .unsupportedAccessSize ∧ cutsLink a = true := by
  cases ha : cutsLink a with
  | false =>
    rw [exec_wrOther hc ha] at h
    cases h
  | true =>
    rw [exec_wrOther_cuts hc ha] at h
    cases h
    exact ⟨rfl, rfl⟩

/-- On an existing block only PROCESS and WR_OTHER can be refused. -/
theorem refused_on_block {i : Instr} {s : State} {r : Refusal} (hc : s.created = true) (h : exec i s = .refused r) :
    (∃ e : Cycles, i = .process e) ∨ ∃ (a : Offset) (v : Half), i = .wrOther a v := by
  cases i with
  | process e => exact .inl ⟨e, rfl⟩
  | wrOther a v => exact .inr ⟨a, v, rfl⟩
  | reset | poll | recv | trans | unrecognized | create => cases h
  | wrJoycnt | wrJoystat | wrJoyTransLo | wrJoyTransHi | connect | teardown | destroy | onload =>
    obtain ⟨hno, -⟩ | ⟨-, h⟩ := (whenCreated_eq_refused _ _ _).mp h
    · exact absurd hno (by simp [hc])
    · cases h

/-- Every cause of a refusal: no block, an absent channel, a counter out of range, an offset that cuts a register. -/
theorem refusal_cases {i : Instr} {s : State} {r : Refusal} (h : exec i s = .refused r) :
    (r = .noBlock ∧ s.created = false ∧ i.isCommand = false ∧ i ≠ .create) ∨
    (s.created = true ∧
      ((r = .notConnected ∧ s.linked = false ∧ ∃ e : Cycles, i = .process e) ∨
       (r = .counterOverflow ∧ s.linked = true ∧ ∃ e : Cycles, i = .process e ∧ tick e s = none) ∨
       (r = .unsupportedAccessSize ∧ ∃ (a : Offset) (v : Half), i = .wrOther a v ∧ cutsLink a = true))) := by
  cases hc : s.created with
  | false =>
    have hi : i.isCommand = false := by
      by_contra hi
      exact exec_ne_refused (.inl (by simpa using hi)) s r h
    have hne : i ≠ .create := fun hi => exec_ne_refused (.inr hi) s r h
    rw [exec_of_no_block hi hne hc] at h
    cases h
    exact .inl ⟨rfl, rfl, hi, hne⟩
  | true =>
    refine .inr ⟨rfl, ?_⟩
    rcases refused_on_block hc h with ⟨e, rfl⟩ | ⟨a, v, rfl⟩
    · rcases process_refused hc h with ⟨hr, hl⟩ | ⟨hr, hl, ht⟩
      · exact .inl ⟨hr, hl, e, rfl⟩
      · exact .inr (.inl ⟨hr, hl, e, rfl, ht⟩)
    · obtain ⟨hr, ha⟩ := wrOther_refused hc h
      exact .inr (.inr ⟨hr, a, v, rfl, ha⟩)

end Sys2Proof.Machine

namespace Sys2Proof.Proofs

open Sys2Proof.Machine

/-- Settles O12: `newBlock` written out. -/
theorem createMakesANewBlock : Obligations.CreateMakesANewBlock := by
  unfold Obligations.CreateMakesANewBlock
  exact fun s => rfl

/-- Settles O13: the two outcomes of `connectWith`. -/
theorem connectSetsBothChannelsOrNeither : Obligations.ConnectSetsBothChannelsOrNeither := by
  unfold Obligations.ConnectSetsBothChannelsOrNeither
  refine fun s hc => ⟨?_, fun o ho => ?_⟩
  · rw [exec_connect hc, connectWith_ok]
  · rw [exec_connect hc, connectWith_fail ho]

/-- Settles O14: the channels are closed and the queues empty already when the second TEARDOWN comes. -/
theorem teardownClosesBothAndIsIdempotent : Obligations.TeardownClosesBothAndIsIdempotent := by
  unfold Obligations.TeardownClosesBothAndIsIdempotent
  exact fun s hc => ⟨_, exec_teardown hc, exec_teardown hc, rfl⟩

/-- Settles O15: TEARDOWN's effect, and no block is left. -/
theorem destroyClosesBothChannels : Obligations.DestroyClosesBothChannels := by
  unfold Obligations.DestroyClosesBothChannels
  exact fun s hc => exec_destroy hc

/-- Settles O16: both counters at 0, true returned. -/
theorem onloadZeroesBothCounters : Obligations.OnloadZeroesBothCounters := by
  unfold Obligations.OnloadZeroesBothCounters
  exact fun s hc => exec_onload hc

/-- Settles O18: `refusal_cases` one way, each cause's own lemma the other way. -/
theorem refusalsHaveExactlyTheirCauses : Obligations.RefusalsHaveExactlyTheirCauses := by
  unfold Obligations.RefusalsHaveExactlyTheirCauses
  refine fun i s => ⟨⟨fun h => ?_, ?_⟩, ⟨fun h => ?_, ?_⟩, ⟨fun h => ?_, ?_⟩⟩
  · rcases refusal_cases h with ⟨-, hcause⟩ | ⟨-, ⟨⟨⟩, -⟩ | ⟨⟨⟩, -⟩ | ⟨⟨⟩, -⟩⟩
    exact hcause
  · rintro ⟨hc, hi, hne⟩
    exact exec_of_no_block hi hne hc
  · rcases refusal_cases h with ⟨⟨⟩, -⟩ | ⟨hc, ⟨-, hcause⟩ | ⟨⟨⟩, -⟩ | ⟨⟨⟩, -⟩⟩
    exact ⟨hc, hcause⟩
  · rintro ⟨hc, hl, e, rfl⟩
    exact exec_process_not_linked hc hl e
  · rcases refusal_cases h with ⟨⟨⟩, -⟩ | ⟨hc, ⟨⟨⟩, -⟩ | ⟨⟨⟩, -⟩ | ⟨-, hcause⟩⟩
    exact ⟨hc, hcause⟩
  · rintro ⟨hc, a, v, rfl, ha⟩
    exact exec_wrOther_cuts hc ha v

/-- Settles O10: a step serves the head of the agenda, and decoding is what serving a call or a 16-bit store does. -/
theorem stepRunsTheDecodedOperation : Obligations.StepRunsTheDecodedOperation := by
  unfold Obligations.StepRunsTheDecodedOperation
  exact ⟨fun s op rest ha => step_cons ha, fun s a v rest ha => step_cons ha, fun s ha => step_nil ha⟩

/-- Settles O53: an arrival looks at its own channel alone. -/
theorem peerItemsJoinTheEndOfTheirQueue : Obligations.PeerItemsJoinTheEndOfTheirQueue := by
  unfold Obligations.PeerItemsJoinTheEndOfTheirQueue
  intro s bs r
  refine ⟨fun hd => ?_, fun hc => ?_, fun hd => ?_, fun hc => ?_⟩
  · simp [serve, arriveBytes, hd, State.setRxq]
  · simp [serve, arriveClock, hc, State.setCkq]
  · simp [serve, arriveBytes, hd]
  · simp [serve, arriveClock, hc]

/-- Settles O54: `Config.resetRegs` holds six zeros. -/
theorem consoleResetClearsTheRegisterFile : Obligations.ConsoleResetClearsTheRegisterFile := by
  unfold Obligations.ConsoleResetClearsTheRegisterFile
  exact fun s => rfl

end Sys2Proof.Proofs

/-! PROOF. The counters of PROCESS (spec/42_sequencer.md): it completes exactly where every exact result is in range,
and what it leaves in NEC and CSR. -/

namespace Sys2Proof.Machine

/-! ## When a PROCESS completes -/

/-- Every exact counter result a PROCESS computes is in range: both differences and, on a poll, CSR with the grant
(spec/42_sequencer.md rule R110). -/
def State.tickInRange (s : State) (e : Cycles) : Prop :=
  inRange (s.nec.toInt - e.toInt) ∧ inRange (s.csr.toInt - e.toInt) ∧
    (s.nec.toInt ≤ e.toInt → s.csr.toInt ≤ e.toInt → inRange (s.csr.toInt - e.toInt + s.nextGrant))

/-- Every integer in range is the value of a counter. -/
theorem exists_cycles {z : Int} (h : inRange z) : ∃ c : Cycles, c.toInt = z := by
  cases hz : narrow z with
  | none => exact absurd h ((narrow_eq_none z).mp hz)
  | some c => exact ⟨c, (narrow_eq_some z c).mp hz⟩

/-- The command step of a due PROCESS never overflows: NEC is not positive and every cost is small. -/
theorem exists_commandStep {s : State} (hdue : s.nec.toInt ≤ 0) : ∃ t : State, commandStep s = some t := by
  have hrange := cycles_range s.nec
  cases hb : s.commandByte with
  | none =>
    obtain ⟨n, hn⟩ := exists_cycles (z := s.nec.toInt + 600) ⟨by omega, by omega⟩
    exact ⟨_, (commandStep_eq_some _ _).mpr (.inl ⟨hb, n, hn, rfl⟩)⟩
  | some b =>
    have hcost := dispatch_cost b { s with rxq := s.rxq.tail, readFails := s.readFails.tail }
    have hsmall : inRange (s.nec.toInt +
        (dispatch b { s with rxq := s.rxq.tail, readFails := s.readFails.tail }).cost.toInt) := by
      rw [hcost]
      unfold inRange
      split_ifs <;> omega
    obtain ⟨n, hn⟩ := exists_cycles hsmall
    refine ⟨_, (commandStep_eq_some _ _).mpr (.inr ⟨b, hb, n, ?_, rfl⟩)⟩
    rw [dispatch_nec]
    exact hn

theorem exists_grantStep {s : State} (h : s.csr.toInt ≤ 0 → inRange (s.csr.toInt + s.nextGrant)) :
    ∃ c : Cycles, grantStep s =
      some { s with csr := c, ckq := if s.csr.toInt ≤ 0 then s.ckq.tail else s.ckq } := by
  have hrange : inRange (s.csr.toInt + (if s.csr.toInt ≤ 0 then s.nextGrant else 0)) := by
    split_ifs with hpoll
    · exact h hpoll
    · rw [Int.add_zero]
      exact cycles_range s.csr
  obtain ⟨c, hc⟩ := exists_cycles hrange
  exact ⟨c, (grantStep_eq_some _ _).mpr ⟨c, hc, rfl⟩⟩

theorem exists_processingStep {s : State} (hdue : s.nec.toInt ≤ 0)
    (h : s.csr.toInt ≤ 0 → inRange (s.csr.toInt + s.nextGrant)) : ∃ t : State, processingStep s = some t := by
  obtain ⟨c, hgrant⟩ := exists_grantStep h
  obtain ⟨t, hcommand⟩ := exists_commandStep (s := { s with
    csr := c, ckq := if s.csr.toInt ≤ 0 then s.ckq.tail else s.ckq }) hdue
  exact ⟨clampNec t, by simp [processingStep, hgrant, hcommand]⟩

theorem exists_tick {s : State} {e : Cycles} (h : s.tickInRange e) : ∃ t : State, tick e s = some t := by
  obtain ⟨hnec, hcsr, hgrant⟩ := h
  obtain ⟨n, hn⟩ := exists_cycles hnec
  obtain ⟨c, hc⟩ := exists_cycles hcsr
  have helapse := (elapse_eq_some e s _).mpr ⟨n, c, hn, hc, rfl⟩
  by_cases hdue : n.toInt ≤ 0
  · have hpoll : c.toInt ≤ 0 → inRange (c.toInt + s.nextGrant) := by
      intro hspent
      rw [hc]
      exact hgrant (by omega) (by omega)
    obtain ⟨t, ht⟩ := exists_processingStep (s := { s with nec := n, csr := c }) hdue hpoll
    exact ⟨returnNec t, by simp [tick, helapse, isDue, hdue, ht]⟩
  · exact ⟨returnNec { s with nec := n, csr := c }, by simp [tick, helapse, isDue, hdue]⟩

/-- A completed PROCESS computed no result out of range. -/
theorem process_tickInRange {s t : State} {e : Cycles} (h : exec (.process e) s = .next t) : s.tickInRange e := by
  obtain ⟨-, -, htick⟩ := (exec_process_eq_next e s t).mp h
  have helapse : elapse e s ≠ none := by
    intro hnone
    simp [tick, hnone] at htick
  obtain ⟨hnec, hcsr⟩ : inRange (s.nec.toInt - e.toInt) ∧ inRange (s.csr.toInt - e.toInt) := by
    by_contra hout
    exact helapse ((elapse_eq_none e s).mpr hout)
  refine ⟨hnec, hcsr, fun hdue hpoll => ?_⟩
  obtain ⟨-, -, ⟨hlt, -⟩ | ⟨-, n, c, hc, -⟩⟩ := process_cases h
  · omega
  · rw [if_pos hpoll] at hc
    rw [← hc]
    exact cycles_range c

theorem exec_process_of_inRange {s : State} {e : Cycles} (hc : s.created = true) (hl : s.linked = true)
    (h : s.tickInRange e) : ∃ t : State, exec (.process e) s = .next t := by
  obtain ⟨t, ht⟩ := exists_tick h
  exact ⟨t, (exec_process_eq_next e s t).mpr ⟨hc, hl, ht⟩⟩

theorem exec_process_overflow {s : State} {e : Cycles} (hc : s.created = true) (hl : s.linked = true)
    (h : ¬ s.tickInRange e) : exec (.process e) s = .refused .counterOverflow := by
  cases ht : tick e s with
  | none => exact exec_process_no_tick hc hl ht
  | some t => exact absurd (process_tickInRange ((exec_process_eq_next e s t).mpr ⟨hc, hl, ht⟩)) h

/-! ## What a completed PROCESS leaves in the counters -/

theorem process_csr {s t : State} {e : Cycles} (h : exec (.process e) s = .next t) :
    t.csr.toInt = s.csr.toInt - e.toInt +
      (if s.nec.toInt ≤ e.toInt ∧ s.csr.toInt ≤ e.toInt then s.nextGrant else 0) := by
  obtain ⟨-, -, ⟨hdue, n, c, -, hc, rfl⟩ | ⟨hdue, n, c, hc, ⟨-, -, rfl⟩ | ⟨b, -, -, rfl⟩⟩⟩ := process_cases h
  · simp [hdue, hc]
  · simp [hdue, hc]
  · simp [hdue, hc]

/-- A PROCESS that is not due leaves the two differences. -/
theorem process_not_due {s t : State} {e : Cycles} (hlt : e.toInt < s.nec.toInt) (h : exec (.process e) s = .next t) :
    ∃ n c : Cycles, n.toInt = s.nec.toInt - e.toInt ∧ c.toInt = s.csr.toInt - e.toInt ∧
      t = { s with nec := n, csr := c, result := .cycles n } := by
  obtain ⟨-, -, ⟨-, hcounts⟩ | ⟨hdue, -⟩⟩ := process_cases h
  · exact hcounts
  · omega

/-- What a due PROCESS adds to NEC: the cost of its command, or the idle grain without one (spec/42_sequencer.md rules
R106, R107). -/
def State.dueCost (s : State) : Int :=
  match s.commandByte with
  | none => 600
  | some b => if b = 0xFF ∨ b = 0x00 then 2550 else if b = 0x15 ∨ b = 0x14 then 3750 else 675

theorem State.dueCost_none {s : State} (hb : s.commandByte = none) : s.dueCost = 600 := by
  rw [State.dueCost, hb]

theorem State.dueCost_some {s : State} {b : Byte} (hb : s.commandByte = some b) (u : State) :
    s.dueCost = (dispatch b u).cost.toInt := by
  rw [State.dueCost, hb, dispatch_cost]

theorem process_due_nec {s t : State} {e : Cycles} (hdue : s.nec.toInt ≤ e.toInt)
    (h : exec (.process e) s = .next t) :
    t.nec.toInt = min (s.nec.toInt - e.toInt + s.dueCost) t.csr.toInt := by
  obtain ⟨-, -, ⟨hlt, -⟩ | ⟨-, n, c, -, ⟨hb, hn, rfl⟩ | ⟨b, hb, hn, rfl⟩⟩⟩ := process_cases h
  · omega
  · rw [State.dueCost_none hb]
    exact hn
  · rw [State.dueCost_some hb (takenForCommand s e)]
    exact hn

end Sys2Proof.Machine

namespace Sys2Proof.Proofs

open Sys2Proof.Machine

/-- Settles O36: `State.tickInRange` is the condition, and a completed PROCESS leaves what `process_csr` says. -/
theorem processCompletesExactlyInRange : Obligations.ProcessCompletesExactlyInRange := by
  unfold Obligations.ProcessCompletesExactlyInRange
  refine fun s e hc hl => ⟨fun hin => ?_, fun hout => exec_process_overflow hc hl hout⟩
  obtain ⟨t, ht⟩ := exec_process_of_inRange hc hl hin
  exact ⟨t, ht, process_returns_nec ht, process_csr ht⟩

/-- Settles O37: no grant is taken, so the two differences are the only results. -/
theorem processNotDueOnlyCountsDown : Obligations.ProcessNotDueOnlyCountsDown := by
  unfold Obligations.ProcessNotDueOnlyCountsDown
  intro s e hc hl hlt hnec hcsr
  obtain ⟨t, ht⟩ := exec_process_of_inRange hc hl ⟨hnec, hcsr, fun hdue => by omega⟩
  obtain ⟨n, c, hn, hc, rfl⟩ := process_not_due (by omega) ht
  exact ⟨n, c, hn, hc, ht⟩

/-- Settles O38: `process_csr` and `process_due_nec` where the PROCESS is due. -/
theorem processDueCounters : Obligations.ProcessDueCounters := by
  unfold Obligations.ProcessDueCounters
  intro s t e h hdue
  refine ⟨?_, process_due_nec hdue h, process_returns_nec h⟩
  simpa [hdue] using process_csr h

/-- Settles O41: both counters are 0, so for any e of at least 0 the PROCESS is due and its budget is spent. -/
theorem firstProcessAfterOnloadPollsAndReads : Obligations.FirstProcessAfterOnloadPollsAndReads := by
  unfold Obligations.FirstProcessAfterOnloadPollsAndReads
  intro s t u e hload he hu
  obtain ⟨-, hload⟩ := (whenCreated_eq_next _ _ _).mp hload
  cases hload
  have hspent : (0 : Cycles).toInt ≤ e.toInt := he
  have hle : (0 : Cycles).toInt - e.toInt ≤ 0 := by omega
  refine ⟨hle, hle, ?_, fun b hb => ?_⟩
  · exact (process_takes_ckq hu).trans (if_pos ⟨hspent, hspent⟩)
  · obtain ⟨k, -, -, hrxq⟩ := process_takes_command hu hspent hb
    obtain ⟨rest, hrest⟩ := rxq_of_commandByte hb
    have hqueue : u.rxq = s.rxq.drop (k + 1) := hrxq
    simp only [hqueue, hrest, List.drop_succ_cons, List.length_drop, List.length_cons]
    omega

end Sys2Proof.Proofs

/-! PROOF. The traces TXT and IRQT (spec/10_state.md rules R24, R25, spec/60_exceptions.md section 1): which operations
raise, and that no operation reads what was sent or raised before. -/

namespace Sys2Proof.Machine

/-! ## Raising -/

/-- A conditional raise as what it appends. -/
theorem raise_append (b : Bool) (q : List IrqEvent) :
    (if b = true then q ++ [.sio] else q) = q ++ (if b = true then [.sio] else []) := by
  cases b <;> simp

/-- Of the commands RESET, RECV and TRANS raise, and only with IEN = 1. -/
theorem command_irqt {i : Instr} {s t : State} (hi : i.isCommand = true) (h : exec i s = .next t) :
    t.irqt = s.irqt ++
      (if (i = .reset ∨ i = .recv ∨ i = .trans) ∧ s.regs.joycnt.getLsbD 6 = true then [.sio] else []) := by
  rcases command_cases hi h with ⟨rfl, rfl⟩ | ⟨rfl, rfl⟩ | ⟨rfl, rfl⟩ | ⟨rfl, rfl⟩ | ⟨b, rfl, rfl⟩ <;>
    simp [resetCommand_state, pollCommand_state, recvCommand_state, transCommand_state, raise_append, ienOf]

theorem decodeCommand_raises (b : Byte) :
    decodeCommand b = .reset ∨ decodeCommand b = .recv ∨ decodeCommand b = .trans ↔
      b = 0xFF ∨ b = 0x15 ∨ b = 0x14 := by
  rw [decodeCommand_eq_iff rfl, decodeCommand_eq_iff rfl, decodeCommand_eq_iff rfl]
  simp [encode, eq_comm]

theorem process_irqt {e : Cycles} {s t : State} (h : exec (.process e) s = .next t) :
    t.irqt = s.irqt ++
      (if s.nec.toInt ≤ e.toInt ∧
          (s.commandByte = some 0xFF ∨ s.commandByte = some 0x15 ∨ s.commandByte = some 0x14) ∧
          s.regs.joycnt.getLsbD 6 = true then [.sio] else []) := by
  rcases process_runs h with ⟨hlt, ht⟩ | ⟨-, hb, ht⟩ | ⟨hdue, b, u, hb, hu, ht⟩
  · rw [ht]
    simp [hlt]
  · rw [ht]
    simp [hb]
  · have hirqt := command_irqt (decodeCommand_isCommand b) hu
    simp only [decodeCommand_raises] at hirqt
    rw [ht, hb]
    simp only [hdue, Option.some.injEq, true_and]
    exact hirqt

theorem lifecycle_keeps_traces {i : Instr} {s t : State} (hi : i.isLifecycle = true) (hne : i ≠ .create)
    (h : exec i s = .next t) : t.txt = s.txt ∧ t.irqt = s.irqt := by
  rcases lifecycle_cases hi h with ⟨rfl, -⟩ | ⟨-, ⟨o, -, rfl⟩ | ⟨-, rfl⟩ | ⟨-, rfl⟩ | ⟨-, rfl⟩⟩
  case inl => exact absurd rfl hne
  case inr.inl =>
    rcases connectWith_cases o s with ⟨-, ho⟩ | ⟨-, -, ho⟩ | ⟨-, -, -, ho⟩ <;> simp [ho]
  all_goals exact ⟨rfl, rfl⟩

theorem exec_keeps_irqt {i : Instr} {s t : State} (hi : ¬ i.isCommand = true) (hne : i ≠ .create)
    (hproc : ∀ e : Cycles, i ≠ .process e) (h : exec i s = .next t) : t.irqt = s.irqt := by
  rcases kind_cases i with hcommand | hwrite | hlife | ⟨e, rfl⟩
  · exact absurd hcommand hi
  · rw [write_frame hwrite h]
  · exact (lifecycle_keeps_traces hlife hne h).2
  · exact absurd rfl (hproc e)

/-! ## Other traces -/

/-- The state with other traces. -/
def State.withTraces (s : State) (sent : List Byte) (raised : List IrqEvent) : State :=
  { s with txt := sent, irqt := raised }

/-- From s to t the operation appends to both traces, and with other traces it does the same and appends the same. -/
def AppendsToTraces (i : Instr) (s t : State) : Prop :=
  ∃ (bytes : List Byte) (events : List IrqEvent), t.txt = s.txt ++ bytes ∧ t.irqt = s.irqt ++ events ∧
    ∀ (sent : List Byte) (raised : List IrqEvent),
      exec i (s.withTraces sent raised) = .next (t.withTraces (sent ++ bytes) (raised ++ events))

theorem command_appendsToTraces {i : Instr} {s t : State} (hi : i.isCommand = true) (h : exec i s = .next t) :
    AppendsToTraces i s t := by
  rcases command_cases hi h with ⟨rfl, rfl⟩ | ⟨rfl, rfl⟩ | ⟨rfl, rfl⟩ | ⟨rfl, rfl⟩ | ⟨b, rfl, rfl⟩
  · refine ⟨[0x00, 0x04, lo8 s.regs.joystat], if ienOf s.regs.joycnt then [.sio] else [], ?_, ?_, ?_⟩ <;>
      simp [exec_reset, resetCommand_state, raise_append, State.withTraces, State.returning]
  · refine ⟨[0x00, 0x04, lo8 s.regs.joystat], [], ?_, ?_, ?_⟩ <;>
      simp [exec_poll, pollCommand_state, State.withTraces, State.returning]
  · refine ⟨[lo8 (setBits rxaMask s.regs.joystat)], if ienOf s.regs.joycnt then [.sio] else [], ?_, ?_, ?_⟩ <;>
      simp [exec_recv, recvCommand_state, raise_append, State.withTraces, State.returning, State.rxBytes,
        State.readFailsNow]
  · refine ⟨[lo8 s.regs.joyTransLo, hi8 s.regs.joyTransLo, lo8 s.regs.joyTransHi, hi8 s.regs.joyTransHi,
      lo8 (clearBits txpMask s.regs.joystat)], if ienOf s.regs.joycnt then [.sio] else [], ?_, ?_, ?_⟩ <;>
      simp [exec_trans, transCommand_state, raise_append, State.withTraces, State.returning]
  · refine ⟨[], [], ?_, ?_, ?_⟩ <;>
      simp [exec_unrecognized, unrecognizedCommand_state, State.withTraces, State.returning]

/-- An operation that leaves both traces alone, and does the same with any others, appends nothing. -/
theorem appendsToTraces_nothing {i : Instr} {s t : State} (htxt : t.txt = s.txt) (hirqt : t.irqt = s.irqt)
    (hother : ∀ (sent : List Byte) (raised : List IrqEvent),
      exec i (s.withTraces sent raised) = .next (t.withTraces sent raised)) : AppendsToTraces i s t :=
  ⟨[], [], by simp [htxt], by simp [hirqt], by simpa using hother⟩

theorem write_appendsToTraces {i : Instr} {s t : State} (hi : i.isWrite = true) (h : exec i s = .next t) :
    AppendsToTraces i s t := by
  have hframe := write_frame hi h
  refine appendsToTraces_nothing (by rw [hframe]) (by rw [hframe]) (fun sent raised => ?_)
  rw [write_of_same_file (s' := s.withTraces sent raised) hi h rfl rfl rfl, hframe]
  rfl

theorem connectWith_withTraces (o : ConnectOutcome) (s : State) (sent : List Byte) (raised : List IrqEvent) :
    connectWith o (s.withTraces sent raised) = (connectWith o s).withTraces sent raised := by
  by_cases ho : o = .ok
  · rw [ho, connectWith_ok, connectWith_ok]
    rfl
  · rw [connectWith_fail ho, connectWith_fail ho, apply_ite (State.withTraces · sent raised)]
    rfl

theorem lifecycle_appendsToTraces {i : Instr} {s t : State} (hi : i.isLifecycle = true) (hne : i ≠ .create)
    (h : exec i s = .next t) : AppendsToTraces i s t := by
  obtain ⟨htxt, hirqt⟩ := lifecycle_keeps_traces hi hne h
  refine appendsToTraces_nothing htxt hirqt (fun sent raised => ?_)
  rcases lifecycle_cases hi h with ⟨rfl, -⟩ | ⟨hc, ⟨o, rfl, rfl⟩ | ⟨rfl, rfl⟩ | ⟨rfl, rfl⟩ | ⟨rfl, rfl⟩⟩
  · exact absurd rfl hne
  · rw [← connectWith_withTraces]
    exact exec_connect (s := s.withTraces sent raised) hc o
  · exact exec_teardown (s := s.withTraces sent raised) hc
  · exact exec_destroy (s := s.withTraces sent raised) hc
  · exact exec_onload (s := s.withTraces sent raised) hc

/-- The counters a PROCESS leaves are computed without the traces. -/
theorem process_counters_withTraces {e : Cycles} {s t u : State} {sent : List Byte} {raised : List IrqEvent}
    (h : exec (.process e) s = .next t) (hu : exec (.process e) (s.withTraces sent raised) = .next u) :
    u.nec = t.nec ∧ u.csr = t.csr ∧ u.result = t.result := by
  have hcsr : u.csr = t.csr := BitVec.eq_of_toInt_eq ((process_csr hu).trans (process_csr h).symm)
  have hnec : u.nec = t.nec := by
    apply BitVec.eq_of_toInt_eq
    rcases lt_or_ge e.toInt s.nec.toInt with hlt | hdue
    · obtain ⟨n, c, hn, -, rfl⟩ := process_not_due hlt h
      obtain ⟨n', c', hn', -, rfl⟩ := process_not_due (s := s.withTraces sent raised) hlt hu
      exact hn'.trans hn.symm
    · have hdue' : (s.withTraces sent raised).dueCost = s.dueCost := rfl
      have hn := process_due_nec (s := s.withTraces sent raised) hdue hu
      rw [hcsr] at hn
      exact hn.trans (process_due_nec hdue h).symm
  refine ⟨hnec, hcsr, ?_⟩
  rw [process_returns_nec hu, process_returns_nec h, hnec]

theorem process_appendsToTraces {e : Cycles} {s t : State} (h : exec (.process e) s = .next t) :
    AppendsToTraces (.process e) s t := by
  obtain ⟨hc, hl, -⟩ := process_cases h
  have hin := process_tickInRange h
  have hother : ∀ (sent : List Byte) (raised : List IrqEvent),
      ∃ u : State, exec (.process e) (s.withTraces sent raised) = .next u := fun sent raised =>
    exec_process_of_inRange (s := s.withTraces sent raised) hc hl hin
  rcases process_runs h with ⟨hlt, ht⟩ | ⟨hdue, hb, ht⟩ | ⟨hdue, b, v, hb, hv, ht⟩
  · refine appendsToTraces_nothing (by rw [ht]) (by rw [ht]) (fun sent raised => ?_)
    obtain ⟨u, hu⟩ := hother sent raised
    obtain ⟨hn, hc, hr⟩ := process_counters_withTraces h hu
    rw [hu, process_counts_down hu hlt, hn, hc, hr, ht]
    rfl
  · refine appendsToTraces_nothing (by rw [ht]) (by rw [ht]) (fun sent raised => ?_)
    obtain ⟨u, hu⟩ := hother sent raised
    obtain ⟨hn, hc, hr⟩ := process_counters_withTraces h hu
    rw [hu, process_idle hu hdue hb, hn, hc, hr, ht]
    rfl
  · obtain ⟨bytes, events, htxt, hirqt, hsame⟩ := command_appendsToTraces (decodeCommand_isCommand b) hv
    refine ⟨bytes, events, by rw [ht]; exact htxt, by rw [ht]; exact hirqt, fun sent raised => ?_⟩
    obtain ⟨u, hu⟩ := hother sent raised
    obtain ⟨hn, hc, hr⟩ := process_counters_withTraces h hu
    obtain ⟨w, hw, hwu⟩ := process_command hu hdue hb
    obtain rfl : v.withTraces (sent ++ bytes) (raised ++ events) = w :=
      Host.Outcome.next.inj ((hsame sent raised).symm.trans hw)
    rw [hu, hwu, hn, hc, hr, ht]
    rfl

theorem exec_appendsToTraces {i : Instr} {s t : State} (hne : i ≠ .create) (h : exec i s = .next t) :
    AppendsToTraces i s t := by
  rcases kind_cases i with hi | hi | hi | ⟨e, rfl⟩
  · exact command_appendsToTraces hi h
  · exact write_appendsToTraces hi h
  · exact lifecycle_appendsToTraces hi hne h
  · exact process_appendsToTraces h

/-- No cause of a refusal looks at the traces. -/
theorem refused_withTraces {i : Instr} {s : State} {r : Refusal} (h : exec i s = .refused r) (sent : List Byte)
    (raised : List IrqEvent) : exec i (s.withTraces sent raised) = .refused r := by
  rcases refusal_cases h with ⟨rfl, hc, hi, hne⟩ |
    ⟨hc, ⟨rfl, hl, e, rfl⟩ | ⟨rfl, hl, e, rfl, ht⟩ | ⟨rfl, a, v, rfl, ha⟩⟩
  · exact exec_of_no_block (s := s.withTraces sent raised) hi hne hc
  · exact exec_process_not_linked (s := s.withTraces sent raised) hc hl e
  · refine exec_process_overflow (s := s.withTraces sent raised) hc hl (fun hin => ?_)
    obtain ⟨t, htick⟩ := exists_tick (s := s) hin
    rw [ht] at htick
    cases htick
  · exact exec_wrOther_cuts (s := s.withTraces sent raised) hc ha v

end Sys2Proof.Machine

namespace Sys2Proof.Proofs

open Sys2Proof.Machine

/-- Settles O42: no operation but CREATE, PROCESS and the commands touches IRQT. -/
theorem onlyThreeCommandsRaiseAndOnlyWithIen : Obligations.OnlyThreeCommandsRaiseAndOnlyWithIen := by
  unfold Obligations.OnlyThreeCommandsRaiseAndOnlyWithIen
  refine ⟨fun i s t hne hproc h => ?_, fun s t e h => process_irqt h⟩
  by_cases hi : i.isCommand = true
  · exact command_irqt hi h
  · have hirqt := exec_keeps_irqt hi hne hproc h
    have hsilent : ¬ (i = .reset ∨ i = .recv ∨ i = .trans) := by rintro (rfl | rfl | rfl) <;> exact hi rfl
    simp [hirqt, hsilent]

/-- Settles O43: what is appended, from the same lemma as O44. -/
theorem tracesOnlyGrow : Obligations.TracesOnlyGrow := by
  unfold Obligations.TracesOnlyGrow
  intro i s t hne h
  obtain ⟨bytes, events, htxt, hirqt, -⟩ := exec_appendsToTraces hne h
  exact ⟨⟨bytes, htxt⟩, ⟨events, hirqt⟩⟩

/-- Settles O44: what is appended, that CREATE starts both traces anew, and `refused_withTraces`. -/
theorem tracesAreNeverReadBack : Obligations.TracesAreNeverReadBack := by
  unfold Obligations.TracesAreNeverReadBack
  refine ⟨?_, fun s sent raised => rfl, fun i s r sent raised h => refused_withTraces h sent raised⟩
  intro i s t sent raised hne h
  obtain ⟨bytes, events, htxt, hirqt, hsame⟩ := exec_appendsToTraces hne h
  exact ⟨bytes, events, htxt, hirqt, hsame sent raised⟩

end Sys2Proof.Proofs

/-! PROOF. Registers, flags and bytes of the register file (spec/10_state.md section 2, spec/60_exceptions.md section
3): which registers and bytes an operation leaves, and which operation can change which bit of JOYCNT and JOYSTAT. -/

namespace Sys2Proof.Machine

/-! ## Registers -/

theorem exec_keeps_reg {i : Instr} {s t : State} {r : LinkReg} (h : exec i s = .next t) (hr : r ∉ writtenRegs i) :
    t.reg r = s.reg r := by
  rcases kind_cases i with hi | hi | hi | ⟨e, rfl⟩
  · exact command_keeps_reg hi h hr
  · exact write_keeps_reg hi h hr
  · unfold State.reg
    rw [(lifecycle_keeps_file hi h).1]
  · exact process_keeps_reg h hr

/-! ## Bytes of the register file -/

/-- `MemWrite` leaves every byte but the two it is given, whatever form the rest of the file is in. -/
theorem memWrite_keeps_byte (s : State) {a b : Offset} (v : Half) (hlow : b ≠ a) (hhigh : b ≠ a + 1) :
    (s.memWrite a v).fileByte b = s.fileByte b := by
  cases ha : regAt a with
  | some r =>
    obtain rfl := (regAt_eq_some a r).mp ha
    rw [memWrite_addrOf]
    refine fileByte_of_regs b rfl (fun q hq => ?_)
    rw [State.reg_setReg, if_neg]
    rintro rfl
    exact hq.elim hlow hhigh
  | none =>
    rw [memWrite_other s a v ha]
    rcases byte_cases b with ⟨r, rfl⟩ | ⟨r, rfl⟩ | hb
    · rw [fileByte_low, fileByte_low]
      rfl
    · rw [fileByte_high, fileByte_high]
      rfl
    · rw [fileByte_other _ b hb, fileByte_other _ b hb, State.setMem_mem,
        memByte_memSetByte_ne _ _ (toNat_ne hhigh.symm), memByte_memSetByte_ne _ _ (toNat_ne hlow.symm)]

theorem exec_keeps_mem {i : Instr} {s t : State} (h : exec i s = .next t)
    (hne : ∀ (a : Offset) (v : Half), i ≠ .wrOther a v) : t.mem = s.mem := by
  rcases kind_cases i with hi | hi | hi | ⟨e, rfl⟩
  · rw [command_frame hi h]
  · exact write_keeps_mem hi h hne
  · exact (lifecycle_keeps_file hi h).2
  · rw [process_frame h]

/-- But for WR_OTHER an operation stores to both bytes of each register it may write. -/
theorem regBytes_of_written {i : Instr} {r : LinkReg} (hne : ∀ (a : Offset) (v : Half), i ≠ .wrOther a v)
    (hr : r ∈ writtenRegs i) : addrOf r ∈ storedBytes i ∧ addrOf r + 1 ∈ storedBytes i := by
  cases i with
  | wrOther a v => exact absurd rfl (hne a v)
  | _ => cases r <;> simp_all [writtenRegs, storedBytes, regBytes]

/-- A completed WR_OTHER cuts no link register and is a `MemWrite` whose value is returned. -/
theorem wrOther_next {a : Offset} {v : Half} {s t : State} (h : exec (.wrOther a v) s = .next t) :
    cutsLink a = false ∧ t = (s.memWrite a v).returning (.half v) := by
  obtain ⟨-, ⟨v', hi, -⟩ | ⟨v', hi, -⟩ | ⟨v', hi, -⟩ | ⟨v', hi, -⟩ | ⟨a', v', hi, ha, ht⟩⟩ := write_cases rfl h
  all_goals cases hi
  exact ⟨ha, ht⟩

theorem exec_keeps_byte {i : Instr} {s t : State} {a : Offset} (h : exec i s = .next t) (ha : a ∉ storedBytes i) :
    t.fileByte a = s.fileByte a := by
  by_cases hother : ∃ (o : Offset) (v : Half), i = .wrOther o v
  · obtain ⟨o, v, rfl⟩ := hother
    obtain ⟨-, rfl⟩ := wrOther_next h
    obtain ⟨hlow, hhigh⟩ : a ≠ o ∧ a ≠ o + 1 := by simpa [storedBytes] using ha
    exact memWrite_keeps_byte s v hlow hhigh
  · have hne : ∀ (o : Offset) (v : Half), i ≠ .wrOther o v := fun o v hi => hother ⟨o, v, hi⟩
    refine fileByte_of_regs a (exec_keeps_mem h hne) (fun r hr => exec_keeps_reg h (fun hw => ha ?_))
    obtain ⟨hlow, hhigh⟩ := regBytes_of_written hne hw
    rcases hr with rfl | rfl
    · exact hlow
    · exact hhigh

/-! ## Bits of the masks -/

theorem setBits_getLsbD (m old : Half) (k : Nat) :
    (setBits m old).getLsbD k = (old.getLsbD k || m.getLsbD k) := by
  rw [setBits, BitVec.getLsbD_or]

theorem clearBits_getLsbD (m old : Half) {k : Nat} (hk : k < 16) :
    (clearBits m old).getLsbD k = (old.getLsbD k && !m.getLsbD k) := by
  have hreg : k < Config.params.regw := hk
  simp [clearBits, hreg]

/-- Each of these masks is one bit. -/
theorem flagMasks_getLsbD {k : Nat} (hk : k < 16) :
    rstMask.getLsbD k = decide (k = 0) ∧ rcvMask.getLsbD k = decide (k = 1) ∧ sndMask.getLsbD k = decide (k = 2) ∧
      rxaMask.getLsbD k = decide (k = 1) ∧ txpMask.getLsbD k = decide (k = 3) := by
  revert k
  decide

theorem joycntUndocumented_getLsbD {k : Nat} (hk : k < 16) :
    joycntUndocumented.getLsbD k = decide (¬ (k ≤ 2 ∨ k = 6)) := by
  revert k
  decide

theorem joystatUndocumented_getLsbD {k : Nat} (hk : k < 16) :
    joystatUndocumented.getLsbD k = decide (¬ (k = 1 ∨ k = 3 ∨ k = 4 ∨ k = 5)) := by
  revert k
  decide

/-- Two values agree under a mask where their bits agree at each 1 of the mask. -/
theorem and_mask_eq {a b m : Half} (h : ∀ k : Nat, k < 16 → m.getLsbD k = true → a.getLsbD k = b.getLsbD k) :
    a &&& m = b &&& m := by
  apply BitVec.eq_of_getLsbD_eq
  intro k hk
  rw [BitVec.getLsbD_and, BitVec.getLsbD_and]
  cases hm : m.getLsbD k with
  | false => simp
  | true => rw [h k hk hm]

/-! ## What a command makes of the flags -/

/-- The event flag a command sets in JOYCNT. -/
def eventSetBy : Instr → Half
  | .reset => rstMask
  | .recv => rcvMask
  | .trans => sndMask
  | _ => 0

/-- The bits a command sets in JOYSTAT. -/
def statusSetBy : Instr → Half
  | .recv => rxaMask
  | _ => 0

/-- The bits a command clears in JOYSTAT. -/
def statusClearedBy : Instr → Half
  | .trans => txpMask
  | _ => 0

theorem eventSetBy_getLsbD {c : Instr} {k : Nat} (hk : k < 16) (h : (eventSetBy c).getLsbD k = true) :
    (k = 0 ∧ c = .reset) ∨ (k = 1 ∧ c = .recv) ∨ (k = 2 ∧ c = .trans) := by
  obtain ⟨hrst, hrcv, hsnd, -, -⟩ := flagMasks_getLsbD hk
  cases c <;> simp_all [eventSetBy]

theorem statusSetBy_getLsbD {c : Instr} {k : Nat} (hk : k < 16) (h : (statusSetBy c).getLsbD k = true) :
    k = 1 ∧ c = .recv := by
  obtain ⟨-, -, -, hrxa, -⟩ := flagMasks_getLsbD hk
  cases c <;> simp_all [statusSetBy]

theorem statusClearedBy_getLsbD {c : Instr} {k : Nat} (hk : k < 16) (h : (statusClearedBy c).getLsbD k = true) :
    k = 3 ∧ c = .trans := by
  obtain ⟨-, -, -, -, htxp⟩ := flagMasks_getLsbD hk
  cases c <;> simp_all [statusClearedBy]

/-- The flags as the command c leaves them. -/
def FlagsAfter (c : Instr) (s t : State) : Prop :=
  t.regs.joycnt = setBits (eventSetBy c) s.regs.joycnt ∧
    t.regs.joystat = clearBits (statusClearedBy c) (setBits (statusSetBy c) s.regs.joystat)

/-- POLL leaves the flags as they are. -/
theorem flagsAfter_poll {s t : State} (h : t.regs = s.regs) : FlagsAfter .poll s t := by
  unfold FlagsAfter
  rw [h]
  exact ⟨(or_half_zero _).symm, ((and_half_not_zero _).trans (or_half_zero _)).symm⟩

theorem command_flags {i : Instr} {s t : State} (hi : i.isCommand = true) (h : exec i s = .next t) :
    FlagsAfter i s t := by
  rcases command_cases hi h with ⟨rfl, rfl⟩ | ⟨rfl, rfl⟩ | ⟨rfl, rfl⟩ | ⟨rfl, rfl⟩ | ⟨b, rfl, rfl⟩
  · rw [resetCommand_state]
    exact ⟨rfl, (flagsAfter_poll (s := s) rfl).2⟩
  · rw [pollCommand_state]
    exact flagsAfter_poll rfl
  · rw [recvCommand_state]
    exact ⟨rfl, (and_half_not_zero _).symm⟩
  · rw [transCommand_state]
    exact ⟨rfl, congrArg (clearBits txpMask) (or_half_zero _).symm⟩
  · exact flagsAfter_poll (s := s) rfl

/-- A PROCESS leaves the flags as some command does. -/
theorem process_flags {e : Cycles} {s t : State} (h : exec (.process e) s = .next t) :
    ∃ c : Instr, FlagsAfter c s t := by
  rcases process_runs h with ⟨-, ht⟩ | ⟨-, -, ht⟩ | ⟨-, b, u, -, hu, ht⟩
  · exact ⟨.poll, flagsAfter_poll (by rw [ht])⟩
  · exact ⟨.poll, flagsAfter_poll (by rw [ht])⟩
  · refine ⟨decodeCommand b, ?_⟩
    have hflags : FlagsAfter (decodeCommand b) (takenForCommand s e) u :=
      command_flags (decodeCommand_isCommand b) hu
    rw [ht]
    exact hflags

/-! ## Which operation changes which bit -/

/-- A bit of JOYCNT after a command is as before, or the event flag the command sets. -/
theorem flagsAfter_joycnt {c : Instr} {s t : State} (h : FlagsAfter c s t) {k : Nat} (hk : k < 16) :
    t.regs.joycnt.getLsbD k = s.regs.joycnt.getLsbD k ∨
      (t.regs.joycnt.getLsbD k = true ∧
        ((k = 0 ∧ c = .reset) ∨ (k = 1 ∧ c = .recv) ∨ (k = 2 ∧ c = .trans))) := by
  obtain ⟨hcnt, -⟩ := h
  rw [hcnt, setBits_getLsbD]
  cases hm : (eventSetBy c).getLsbD k with
  | false => simp
  | true => exact .inr ⟨by simp, eventSetBy_getLsbD hk hm⟩

theorem flagsAfter_joystat {c : Instr} {s t : State} (h : FlagsAfter c s t) {k : Nat} (hk : k < 16) :
    t.regs.joystat.getLsbD k = s.regs.joystat.getLsbD k ∨
      (t.regs.joystat.getLsbD k = true ∧ k = 1 ∧ c = .recv) ∨
      (t.regs.joystat.getLsbD k = false ∧ k = 3 ∧ c = .trans) := by
  obtain ⟨-, hstat⟩ := h
  rw [hstat, clearBits_getLsbD _ _ hk, setBits_getLsbD]
  cases hclear : (statusClearedBy c).getLsbD k with
  | true => exact .inr (.inr ⟨by simp, statusClearedBy_getLsbD hk hclear⟩)
  | false =>
    cases hset : (statusSetBy c).getLsbD k with
    | true => exact .inr (.inl ⟨by simp, statusSetBy_getLsbD hk hset⟩)
    | false => simp

/-- A well-formed WR_OTHER is at the offset of neither flag register. -/
theorem flags_not_written_by_wrOther {a : Offset} {v : Half} (hwf : (Instr.wrOther a v).wf = true) :
    .joycnt ∉ writtenRegs (.wrOther a v) ∧ .joystat ∉ writtenRegs (.wrOther a v) := by
  obtain ⟨hcnt, hstat, -, -⟩ := (notIntercepted_iff a).mp hwf
  simp [writtenRegs, Option.mem_toList, regAt_eq_some, hcnt, hstat]

theorem markTransmitPending_bit (s : State) {k : Nat} (hk : k < 16) :
    (markTransmitPending s).regs.joystat.getLsbD k = s.regs.joystat.getLsbD k ∨
      ((markTransmitPending s).regs.joystat.getLsbD k = true ∧ k = 3) := by
  obtain ⟨-, -, -, -, htxp⟩ := flagMasks_getLsbD hk
  have hbit : (markTransmitPending s).regs.joystat.getLsbD k = _ := setBits_getLsbD txpMask s.regs.joystat k
  rw [hbit, htxp]
  by_cases hthree : k = 3 <;> simp [hthree]

/-- How a bit of JOYCNT can differ after an operation: an event flag set by its command or by a PROCESS, an event flag
cleared by a WR_JOYCNT with a 1 in it, or IEN written by a WR_JOYCNT (spec/60_exceptions.md rule R149). -/
theorem exec_joycnt_bit {i : Instr} {s t : State} (hwf : i.wf = true) (h : exec i s = .next t) {k : Nat}
    (hk : k < 16) :
    t.regs.joycnt.getLsbD k = s.regs.joycnt.getLsbD k ∨
      (t.regs.joycnt.getLsbD k = true ∧
        ((k = 0 ∧ i = .reset) ∨ (k = 1 ∧ i = .recv) ∨ (k = 2 ∧ i = .trans) ∨
          (k ≤ 2 ∧ ∃ e : Cycles, i = .process e))) ∨
      (∃ v : Half, i = .wrJoycnt v ∧
        ((k ≤ 2 ∧ t.regs.joycnt.getLsbD k = false ∧ v.getLsbD k = true) ∨ k = 6)) := by
  rcases kind_cases i with hi | hi | hi | ⟨e, rfl⟩
  · rcases flagsAfter_joycnt (command_flags hi h) hk with hsame | ⟨hset, hflag⟩
    · exact .inl hsame
    · exact .inr (.inl ⟨hset, by tauto⟩)
  · obtain ⟨-, ⟨v, rfl, rfl⟩ | ⟨v, rfl, rfl⟩ | ⟨v, rfl, rfl⟩ | ⟨v, rfl, rfl⟩ | ⟨a, v, rfl, -, -⟩⟩ := write_cases hi h
    · have hbit : (s.commit .joycnt (joycntStored s.regs.joycnt v)).regs.joycnt.getLsbD k = _ :=
        joycntStored_getLsbD s.regs.joycnt v hk
      rw [hbit]
      by_cases hien : k = 6
      · exact .inr (.inr ⟨v, rfl, .inr hien⟩)
      by_cases hevent : k ≤ 2
      · cases hv : v.getLsbD k with
        | false => simp [hien, hevent]
        | true => exact .inr (.inr ⟨v, rfl, .inl ⟨hevent, by simp [hien, hevent], hv⟩⟩)
      · simp [hien, hevent]
    · exact .inl rfl
    · exact .inl rfl
    · exact .inl rfl
    · have hkept : t.reg .joycnt = s.reg .joycnt := exec_keeps_reg h (flags_not_written_by_wrOther hwf).1
      exact .inl (congrArg (BitVec.getLsbD · k) hkept)
  · rw [(lifecycle_keeps_file hi h).1]
    exact .inl rfl
  · obtain ⟨c, hflags⟩ := process_flags h
    rcases flagsAfter_joycnt hflags hk with hsame | ⟨hset, hflag⟩
    · exact .inl hsame
    · exact .inr (.inl ⟨hset, .inr (.inr (.inr ⟨by omega, e, rfl⟩))⟩)

/-- How a bit of JOYSTAT can differ after an operation: RXA set by RECV or a PROCESS, TXP cleared by TRANS or a PROCESS,
TXP set by a transmit-register write, or GPF written by a WR_JOYSTAT (spec/60_exceptions.md rule R149). -/
theorem exec_joystat_bit {i : Instr} {s t : State} (hwf : i.wf = true) (h : exec i s = .next t) {k : Nat}
    (hk : k < 16) :
    t.regs.joystat.getLsbD k = s.regs.joystat.getLsbD k ∨
      (t.regs.joystat.getLsbD k = true ∧ k = 1 ∧ (i = .recv ∨ ∃ e : Cycles, i = .process e)) ∨
      (t.regs.joystat.getLsbD k = false ∧ k = 3 ∧ (i = .trans ∨ ∃ e : Cycles, i = .process e)) ∨
      (t.regs.joystat.getLsbD k = true ∧ k = 3 ∧ ∃ v : Half, i = .wrJoyTransLo v ∨ i = .wrJoyTransHi v) ∨
      ((k = 4 ∨ k = 5) ∧ ∃ v : Half, i = .wrJoystat v) := by
  rcases kind_cases i with hi | hi | hi | ⟨e, rfl⟩
  · rcases flagsAfter_joystat (command_flags hi h) hk with hsame | ⟨hset, hone, hrecv⟩ | ⟨hclear, hthree, htrans⟩
    · exact .inl hsame
    · exact .inr (.inl ⟨hset, hone, .inl hrecv⟩)
    · exact .inr (.inr (.inl ⟨hclear, hthree, .inl htrans⟩))
  · obtain ⟨-, ⟨v, rfl, rfl⟩ | ⟨v, rfl, rfl⟩ | ⟨v, rfl, rfl⟩ | ⟨v, rfl, rfl⟩ | ⟨a, v, rfl, -, -⟩⟩ := write_cases hi h
    · exact .inl rfl
    · by_cases hgpf : k = 4 ∨ k = 5
      · exact .inr (.inr (.inr (.inr ⟨hgpf, v, rfl⟩)))
      · exact .inl ((joystatStored_getLsbD s.regs.joystat v hk).trans (if_neg hgpf))
    · rcases markTransmitPending_bit s hk with hsame | ⟨hset, hthree⟩
      · exact .inl hsame
      · exact .inr (.inr (.inr (.inl ⟨hset, hthree, v, .inl rfl⟩)))
    · rcases markTransmitPending_bit s hk with hsame | ⟨hset, hthree⟩
      · exact .inl hsame
      · exact .inr (.inr (.inr (.inl ⟨hset, hthree, v, .inr rfl⟩)))
    · have hkept : t.reg .joystat = s.reg .joystat := exec_keeps_reg h (flags_not_written_by_wrOther hwf).2
      exact .inl (congrArg (BitVec.getLsbD · k) hkept)
  · rw [(lifecycle_keeps_file hi h).1]
    exact .inl rfl
  · obtain ⟨c, hflags⟩ := process_flags h
    rcases flagsAfter_joystat hflags hk with hsame | ⟨hset, hone, -⟩ | ⟨hclear, hthree, -⟩
    · exact .inl hsame
    · exact .inr (.inl ⟨hset, hone, .inr ⟨e, rfl⟩⟩)
    · exact .inr (.inr (.inl ⟨hclear, hthree, .inr ⟨e, rfl⟩⟩))

/-! ## RXA -/

theorem exec_keeps_rxa {i : Instr} {s t : State} (hwf : i.wf = true) (h : exec i s = .next t)
    (hrxa : s.regs.joystat.getLsbD 1 = true) : t.regs.joystat.getLsbD 1 = true := by
  rcases exec_joystat_bit hwf h (k := 1) (by omega) with hsame | ⟨hset, -⟩ | ⟨-, hne, -⟩ | ⟨-, hne, -⟩ | ⟨hne, -⟩
  · rw [hsame, hrxa]
  · exact hset
  all_goals omega

/-- A completed CPU-side store ran a decoded register write, or wrote one byte outside the six registers. -/
theorem storeAny_decoded {size : AccessSize} {a : Offset} {v : BitVec 32} {s t : State}
    (h : storeAny size a v s = .next t) :
    (∃ (value : Half) (coming : List Event), exec (decodeWrite a value) (s.setAgenda coming) = .next t) ∨
      ∃ b : Byte, t = s.setFileByte a b := by
  cases size with
  | half => exact .inl ⟨_, s.agenda, h⟩
  | word gap =>
    cases hsplit : splits a with
    | true => exact .inl ⟨_, _, (serve_store_word hsplit gap v s).symm.trans h⟩
    | false => cases (serve_store_word_unsupported hsplit gap v s).symm.trans h
  | byte =>
    cases htouch : touchesLink 1 a with
    | true => cases (serve_store_byte_unsupported htouch v s).symm.trans h
    | false =>
      simp only [storeAny, decodeStore, htouch, Bool.false_eq_true, if_false] at h
      cases h
      exact .inr ⟨_, rfl⟩

theorem serve_keeps_rxa {ev : Event} {s t : State} (hne : ev ≠ .consoleReset) (h : serve ev s = .next t)
    (hrxa : s.regs.joystat.getLsbD 1 = true) : t.regs.joystat.getLsbD 1 = true := by
  cases ev with
  | call op => exact exec_keeps_rxa (encode_decodeCall op).2 h hrxa
  | store size a v =>
    rcases storeAny_decoded h with ⟨value, coming, hexec⟩ | ⟨b, rfl⟩
    · exact exec_keeps_rxa (encode_decodeWrite a value).2 hexec hrxa
    · exact hrxa
  | load a =>
    obtain ⟨-, rfl⟩ := loadHalf_eq_next h
    exact hrxa
  | peerBytes bs =>
    cases h
    unfold arriveBytes
    split <;> exact hrxa
  | peerClock r =>
    cases h
    unfold arriveClock
    split <;> exact hrxa
  | readDecision fails =>
    cases h
    exact hrxa
  | consoleReset => exact absurd rfl hne

theorem step_keeps_rxa {s t : State} (hne : s.agenda.head? ≠ some .consoleReset) (h : step s = .next t)
    (hrxa : s.regs.joystat.getLsbD 1 = true) : t.regs.joystat.getLsbD 1 = true := by
  cases ha : s.agenda with
  | nil =>
    rw [step_nil ha] at h
    cases h
    exact hrxa
  | cons ev rest =>
    rw [step_cons ha] at h
    have hev : ev ≠ .consoleReset := fun hev => hne (by simp [ha, hev])
    exact serve_keeps_rxa (s := s.setAgenda rest) hev h hrxa

end Sys2Proof.Machine

namespace Sys2Proof.Proofs

open Sys2Proof.Machine

/-- Settles O49: kind by kind, `exec_keeps_reg`. -/
theorem unwrittenRegistersAreKept : Obligations.UnwrittenRegistersAreKept := by
  unfold Obligations.UnwrittenRegistersAreKept
  exact fun i s t r _ h hr => exec_keeps_reg h hr

/-- Settles O50: the registers' bytes from O49's lemma, WR_OTHER's from `memWrite_keeps_byte`. -/
theorem unstoredFileBytesAreKept : Obligations.UnstoredFileBytesAreKept := by
  unfold Obligations.UnstoredFileBytesAreKept
  exact fun i s t a _ h ha => exec_keeps_byte h ha

/-- Settles O45: under each mask stand only bits that no operation changes. -/
theorem undocumentedBitsNeverChange : Obligations.UndocumentedBitsNeverChange := by
  unfold Obligations.UndocumentedBitsNeverChange
  refine fun i s t hwf h => ⟨and_mask_eq (m := joycntUndocumented) fun k hk hm => ?_,
    and_mask_eq (m := joystatUndocumented) fun k hk hm => ?_⟩
  · have hother : ¬ (k ≤ 2 ∨ k = 6) := by simpa [joycntUndocumented_getLsbD hk] using hm
    rcases exec_joycnt_bit hwf h hk with hsame | ⟨-, hflag⟩ | ⟨v, -, hflag⟩
    · exact hsame
    · omega
    · omega
  · have hother : ¬ (k = 1 ∨ k = 3 ∨ k = 4 ∨ k = 5) := by simpa [joystatUndocumented_getLsbD hk] using hm
    rcases exec_joystat_bit hwf h hk with hsame | ⟨-, hflag, -⟩ | ⟨-, hflag, -⟩ | ⟨-, hflag, -⟩ | ⟨hflag, -⟩
    · exact hsame
    all_goals omega

/-- Settles O46: no operation clears RXA, and every event but the console's reset runs one or leaves JOYSTAT. -/
theorem rxaStaysUntilTheConsoleResets : Obligations.RxaStaysUntilTheConsoleResets := by
  unfold Obligations.RxaStaysUntilTheConsoleResets
  exact ⟨fun i s t hwf h hrxa => exec_keeps_rxa hwf h hrxa, fun s t hne h hrxa => step_keeps_rxa hne h hrxa⟩

/-- Settles O48: `exec_joycnt_bit` and `exec_joystat_bit` at each named bit. -/
theorem eachFlagHasItsSide : Obligations.EachFlagHasItsSide := by
  unfold Obligations.EachFlagHasItsSide
  intro i s t hwf h
  refine ⟨fun k hk hold hnew => ?_, fun k hk hold hnew => ?_, fun hien => ?_, fun k hk hgpf => ?_,
    fun hold hnew => ?_, fun hold hnew => ?_, fun hold hnew => ?_⟩
  · rcases exec_joycnt_bit hwf h (k := k) (by omega) with hsame | ⟨-, hflag⟩ | ⟨v, -, ⟨-, hclear, -⟩ | hsix⟩
    · cases hnew.symm.trans (hsame.trans hold)
    · tauto
    · cases hnew.symm.trans hclear
    · omega
  · rcases exec_joycnt_bit hwf h (k := k) (by omega) with hsame | ⟨hset, -⟩ | ⟨v, hi, ⟨-, -, hv⟩ | hsix⟩
    · cases hnew.symm.trans (hsame.trans hold)
    · cases hnew.symm.trans hset
    · exact ⟨v, hi, hv⟩
    · omega
  · rcases exec_joycnt_bit hwf h (k := 6) (by omega) with hsame | ⟨-, hflag⟩ | ⟨v, hi, -⟩
    · exact absurd hsame hien
    · omega
    · exact ⟨v, hi⟩
  · rcases exec_joystat_bit hwf h (k := k) (by omega) with
      hsame | ⟨-, hone, -⟩ | ⟨-, hthree, -⟩ | ⟨-, hthree, -⟩ | ⟨-, hwrite⟩
    · exact absurd hsame hgpf
    · omega
    · omega
    · omega
    · exact hwrite
  · rcases exec_joystat_bit hwf h (k := 1) (by omega) with
      hsame | ⟨-, -, hcause⟩ | ⟨-, hthree, -⟩ | ⟨-, hthree, -⟩ | ⟨hgpf, -⟩
    · cases hnew.symm.trans (hsame.trans hold)
    · exact hcause
    all_goals omega
  · rcases exec_joystat_bit hwf h (k := 3) (by omega) with
      hsame | ⟨-, hone, -⟩ | ⟨hclear, -⟩ | ⟨-, -, hwrite⟩ | ⟨hgpf, -⟩
    · cases hnew.symm.trans (hsame.trans hold)
    · omega
    · cases hnew.symm.trans hclear
    · exact hwrite
    · omega
  · rcases exec_joystat_bit hwf h (k := 3) (by omega) with
      hsame | ⟨-, hone, -⟩ | ⟨-, -, hcause⟩ | ⟨hset, -⟩ | ⟨hgpf, -⟩
    · cases hnew.symm.trans (hsame.trans hold)
    · omega
    · exact hcause
    · cases hnew.symm.trans hset
    · omega

end Sys2Proof.Proofs

/-! PROOF. A TRANS between the halves of a 32-bit store to JOY_TRANS (spec/20_memory.md rule R47,
spec/70_reset_and_hazards.md rule R172). -/

namespace Sys2Proof.Machine

/-- A due PROCESS whose byte is 0x14 sends the word in the transmit registers, low byte first, and clears TXP. -/
theorem process_trans {e : Cycles} {s t : State} (h : exec (.process e) s = .next t) (hdue : s.nec.toInt ≤ e.toInt)
    (hb : s.commandByte = some 0x14) :
    (∃ status : Byte, t.txt = s.txt ++ [lo8 s.regs.joyTransLo, hi8 s.regs.joyTransLo, lo8 s.regs.joyTransHi,
      hi8 s.regs.joyTransHi, status]) ∧
    t.regs.joystat.getLsbD 3 = false := by
  obtain ⟨u, hu, ht⟩ := process_command h hdue hb
  have htrans : exec .trans (takenForCommand s e) = .next u := hu
  rw [exec_trans, transCommand_state] at htrans
  cases htrans
  rw [ht]
  have htxp : txpMask.getLsbD 3 = true := rfl
  refine ⟨⟨_, rfl⟩, ?_⟩
  show (clearBits txpMask s.regs.joystat).getLsbD 3 = false
  rw [clearBits_getLsbD _ _ (by omega), htxp]
  simp

end Sys2Proof.Machine

namespace Sys2Proof.Proofs

open Sys2Proof.Machine

/-- Settles O55: the two halves are those of O25, and the PROCESS between them sends what `process_trans` says. -/
theorem transBetweenTheHalvesSendsATornWord : Obligations.TransBetweenTheHalvesSendsATornWord := by
  unfold Obligations.TransBetweenTheHalvesSendsATornWord
  intro s t u value e rest hc ha hlow hprocess hdue hb
  obtain ⟨hstore, -⟩ := wordStoreIsTwoHalfWrites s 1 value (.call (.process e) :: rest) hc
  rw [hstore ha] at hlow
  cases hlow
  rw [step_cons rfl] at hprocess
  have hrun : exec (.process e) _ = .next u := hprocess
  obtain ⟨⟨status, htxt⟩, htxp⟩ := process_trans hrun hdue hb
  obtain ⟨-, -, -, hkeeps⟩ := eachKindOfOperationKeepsTheRest _ _ _ hrun
  obtain ⟨hcreated, -, -, -, hagenda, hlo, -⟩ := hkeeps ⟨e, rfl⟩
  refine ⟨⟨status, ?_⟩, htxp, ?_⟩
  · rw [htxt]
    simp only [State.setAgenda_txt, State.setAgenda_regs, lo8_setWidth, hi8_setWidth]
  · obtain ⟨-, hhigh, -⟩ := wordStoreIsTwoHalfWrites u 0 value rest (hcreated.trans hc)
    refine ⟨_, hhigh hagenda, ?_, hlo, rfl, rfl⟩
    have hset : ((8 : Half).getLsbD 3) = true := rfl
    show (u.regs.joystat ||| 8).getLsbD 3 = true
    rw [BitVec.getLsbD_or, hset, Bool.or_true]

end Sys2Proof.Proofs
